-- ==== Sys2Proof/Word.lean ====
section
/-! DEFINITION. The values the spec computes with (00_scope.md R10): bytes, byte strings, 16-bit and 32-bit numbers. -/

namespace Sys2Proof

/-- A byte, an unsigned 8-bit value (R10). -/
abbrev Byte := BitVec 8

/-- A 16-bit unsigned value: RESULT, a register, a CRC (R10, R94, R37). -/
abbrev Word16 := BitVec 16

/-- A 32-bit unsigned value: a command word, the ring's version counter (R10, R91, R27). -/
abbrev Word32 := BitVec 32

/-- A byte string, in stream order (R10, R63). -/
abbrev Bytes := List Byte

end Sys2Proof
end

