-- ==== Sys2Proof/Config.lean ====
section
/-! DEFINITION. What one PA01-FTB is instantiated with (00_scope.md R7), and the values the spec leaves free. -/

namespace Sys2Proof

/-- CODEC, the codec POLL and SEND use (R7). -/
inductive Codec where
  | crc16
  | slip
  deriving DecidableEq, Repr

/-- LOCK_FAIL_MODE, whether a lock acquisition may fail (R7, R68). -/
inductive LockFailMode where
  | never
  | any
  deriving DecidableEq, Repr

/-- The parameters of R7 that the spec leaves open or gives only as defaults.
Their legality is R8 (`Machine.legal`). -/
structure Params where
  /-- C, the ring capacity in bytes. -/
  capacity     : Word16
  /-- FRAME_MIN, the minimum frame size in bytes. -/
  frameMin     : Word16
  /-- FRAME_MAX, the maximum frame size, the scan window. -/
  frameMax     : Word16
  /-- SYNC, the byte the scanner looks for. -/
  sync         : Byte
  /-- CODEC. -/
  codec        : Codec
  /-- CRC_REFIN: R8 refuses 1. -/
  crcRefin     : Bool
  /-- CRC_REFOUT: R8 refuses 1. -/
  crcRefout    : Bool
  /-- CRC_INIT, open (R210). -/
  crcInit      : Word16
  /-- CRC_XOROUT, open (R210). -/
  crcXorout    : Word16
  /-- SLIP_ESC_END, default 0xDC (R240). -/
  slipEscEnd   : Byte
  /-- SLIP_ESC_ESC, default 0xDD (R240). -/
  slipEscEsc   : Byte
  /-- TX_MAX, the capacity of the send buffer in bytes (R189). -/
  txMax        : Word16
  /-- LOCK_FAIL_MODE (R68). -/
  lockFailMode : LockFailMode
  deriving DecidableEq, Repr

/-- C as a number. -/
abbrev Params.C (p : Params) : Nat := p.capacity.toNat

/-- FRAME_MIN as a number. -/
abbrev Params.minLen (p : Params) : Nat := p.frameMin.toNat

/-- FRAME_MAX as a number. -/
abbrev Params.maxLen (p : Params) : Nat := p.frameMax.toNat

/-- TX_MAX as a number. -/
abbrev Params.txLen (p : Params) : Nat := p.txMax.toNat

/-- CRC_POLY, "value for this hardware" (R7, R210). -/
def crcPoly : Word16 := 0x1021#16

/-- SLIP_END (R7, R240). -/
def slipEnd : Byte := 0xC0#8

/-- SLIP_ESC (R7, R240). -/
def slipEsc : Byte := 0xDB#8

/-- Config K1 of 95_test_vectors.md.
DESIGN CHOICE (entry 2): `State.reset` is reset under this configuration; `State.resetWith` takes any. -/
def Params.k1 : Params where
  capacity := 32
  frameMin := 5
  frameMax := 24
  sync := 0xAA
  codec := .crc16
  crcRefin := false
  crcRefout := false
  crcInit := 0xFFFF
  crcXorout := 0x0000
  slipEscEnd := 0xDC
  slipEscEsc := 0xDD
  txMax := 64
  lockFailMode := .never

namespace Config

/-- What slot k of `buf` reads as before anything has written it (R40: any value). Free value, entry 3. -/
opaque freeSlot : Nat → Byte

/-- A byte of `rx_frame` where R36 leaves it unspecified: its command byte, or its first body byte. Free value, entry 4. -/
opaque freeFrameByte : Nat → Byte

/-- The other bytes of `rx_frame` where R36 leaves it unspecified. Free value, entry 4. -/
opaque freeFrameBytes : Nat → Bytes

/-- RESULT of SLIP_PACK of a body whose frame is longer than 65535 bytes: R248 gives len(B), which 16 bits cannot hold.
A function of the body, since SLIP_PACK is idempotent (R69). Free value, entry 9. -/
opaque freeLength : Bytes → Word16

end Config

end Sys2Proof
end

