-- ==== Sys2Proof/Syntax.lean ====
section
/-! DEFINITION. The commands of PA01-FTB, one constructor per row of spec/opcode_table.json (30_encoding.md R95). -/

namespace Sys2Proof

/-- The read-only registers of 10_state.md R37, in the order of their numbers 0x00 to 0x12. -/
inductive Reg where
  | capacity
  | frameMin
  | frameMax
  | sync
  | codec
  | head
  | tail
  | versionLo
  | versionHi
  | flags
  | derrCode
  | crcPoly
  | crcInit
  | crcXorout
  | crcReflect
  | slipCodes
  | slipEscCodes
  | txMax
  | dataSize
  deriving DecidableEq, Repr

/-- A command with its operands (R95).
N of a data command is the length of its byte string (R92, R106). -/
inductive Instr where
  /-- INIT (R160). -/
  | init
  /-- POLL (R174). -/
  | poll
  /-- SEND of a block whose CODEC is CRC16: command byte and payload (R188). -/
  | sendCrc (cmd : Byte) (payload : Bytes)
  /-- SEND of a block whose CODEC is SLIP: body (R188). -/
  | sendSlip (body : Bytes)
  /-- READ_HOOK (R161). -/
  | readHook (chunk : Bytes)
  /-- REG_READ (R195). -/
  | regRead (r : Reg)
  /-- RING_ENQUEUE (R134). -/
  | ringEnqueue (data : Bytes)
  /-- RING_DEQUEUE (R135). -/
  | ringDequeue (n : Word16)
  /-- RING_PEEK (R136). -/
  | ringPeek (n : Word16)
  /-- RING_DISCARD (R137). -/
  | ringDiscard (n : Word16)
  /-- RING_REMAINING (R138). -/
  | ringRemaining
  /-- RING_DATA_SIZE (R139). -/
  | ringDataSize
  /-- CRC16_COMPUTE (R218). -/
  | crc16Compute (data : Bytes)
  /-- CRC_PACK (R219). -/
  | crcPack (cmd : Byte) (payload : Bytes)
  /-- CRC_UNPACK (R220). -/
  | crcUnpack (data : Bytes)
  /-- SLIP_PACK (R248). -/
  | slipPack (body : Bytes)
  /-- SLIP_UNPACK (R249). -/
  | slipUnpack (data : Bytes)
  /-- SLIP_CHECKSUM (R247). -/
  | slipChecksum (data : Bytes)
  deriving DecidableEq, Repr

end Sys2Proof
end

