-- ==== Sys2Proof/Machine/State.lean ====
section
/-! DEFINITION. The state of one PA01-FTB (10_state.md R20), what comes in and goes out of it, and reset (R40, R300). -/

namespace Sys2Proof.Machine

/-- Byte storage in one form: a list of the slots something has written, indices strictly rising (`Memory.wf`).
A slot not listed has no value of its own; a slot of `buf` then reads as the free value `Config.freeSlot`, and nothing reads `txbuf`
(entry 3). -/
abbrev Memory := List Host.Cell

/-- A Frame (00_scope.md R12): a CRC frame is a pair (cmd, payload), a SLIP frame a body. -/
inductive Frame where
  | crc (cmd : Byte) (payload : Bytes)
  | slip (body : Bytes)
  deriving DecidableEq, Repr

/-- The events of 30_encoding.md R104, in the table's order. -/
inductive Event where
  | rawRx (window : Bytes)
  | rawTx (packed : Bytes)
  | decodedRx (frame : Frame)
  /-- Reserved: never emitted. -/
  | decodedTx
  /-- Reserved: never emitted. -/
  | pollTick
  | initComplete
  | logTruncate (requested accepted : Word16)
  | logBackpressure (requested remaining : Word16)
  | logSendGuard (length : Word16)
  | logDeferredError (code : Byte)
  deriving DecidableEq, Repr

/-- The STATUS codes of 30_encoding.md R99, in the table's order. -/
inductive Status where
  | ok
  | lockBusy
  | notInit
  | alreadyInit
  | backpressureDrop
  | sendGuardDrop
  | deferredError
  | illegalCmd
  | truncated
  | paramError
  deriving DecidableEq, Repr

/-- A response (30_encoding.md R90, R94), with the issuer it goes to (entry 6). -/
structure Response where
  issuer : Nat
  status : Status
  result : Word16
  dout   : Bytes
  deriving DecidableEq, Repr

/-- One place of the schedule, the total order of steps of 20_memory.md R72 (entry 5). -/
inductive Input where
  /-- An issuer sends a command (R90). -/
  | command (issuer : Nat) (word : Word32) (din : Bytes)
  /-- The environment takes the step RAISE_DERR (60_exceptions.md R275). -/
  | raiseDerr (code : Byte)
  /-- The active POLL takes its next micro-step (41_transport.md R172). -/
  | pollTurn
  deriving DecidableEq, Repr

/-- A lock of 20_memory.md R67. -/
inductive Lock where
  | free
  | held
  deriving DecidableEq, Repr

/-- Which micro-step of 41_transport.md R172 an active POLL takes next. -/
inductive ScanPhase where
  /-- P1 while `running` is 0, else P2. -/
  | start
  /-- P3. -/
  | resync
  /-- P4 for the frame found at the scan index. -/
  | frame
  deriving DecidableEq, Repr

/-- The locals of an active POLL (10_state.md R33); they exist only while poll_active = 1. -/
structure Scan where
  /-- Who issued the POLL and gets its response (entry 6). -/
  issuer : Nat
  phase  : ScanPhase
  /-- W. Its length is w. -/
  window : Bytes
  /-- The scan index i; in phase resync it is s of R177. -/
  pos    : Nat
  /-- base: window bytes this POLL has discarded from the ring. -/
  base   : Nat
  /-- count: frames this POLL has decoded. -/
  count  : Nat
  deriving DecidableEq, Repr

/-- The state. The first group is 10_state.md R20's; the second is the model's own (INVENTORY.md, State). -/
@[ext]
structure State where
  /-- The configuration of 00_scope.md R7; no step changes it (entry 1). -/
  cfg         : Params
  /-- `buf[0..C)` (R23, R60). -/
  buf         : Memory
  /-- Index of the oldest stored byte (R24). -/
  head        : Word16
  /-- Index of the slot the next enqueued byte goes to (R24). -/
  tail        : Word16
  /-- Counts ring operations that change head or tail (R27). -/
  version     : Word32
  initialized : Bool
  running     : Bool
  derrPending : Bool
  derrCode    : Byte
  ringLock    : Lock
  sendLock    : Lock
  /-- The locals of the active POLL; none is poll_active = 0 (R33). -/
  scan        : Option Scan
  /-- The receive-side scratch Frame (R36). -/
  rxFrame     : Frame
  /-- `txbuf[0..TX_MAX)` (R36, R189). -/
  txbuf       : Memory
  /-- Every byte passed to the byte sink (R34). -/
  sink        : Bytes
  /-- Every event emitted (R35). -/
  events      : List Event
  /-- Every response returned, in order (entry 6). -/
  responses   : List Response
  /-- The schedule still to come (entry 5). -/
  inputs      : List Input
  /-- The free draws of lock_fail() still to come (R68, entry 7). -/
  draws       : List Bool
  /-- The issuer of the command being performed (entry 5). -/
  caller      : Nat
  /-- How many free values of `rxFrame` have been taken (entry 4). -/
  freeCount   : Nat
  deriving DecidableEq, Repr

/-- poll_active (R33). -/
abbrev State.pollActive (s : State) : Bool := s.scan.isSome

/-- The frame the model names for `rxFrame` at reset, of the codec's kind (R36: any value).
DESIGN CHOICE (entry 4). -/
def resetFrame : Codec → Frame
  | .crc16 => .crc 0 []
  | .slip => .slip [0]

/-- Reset: the creation of a block with configuration p (R300), every element at the value of R40. -/
def State.resetWith (p : Params) : State where
  cfg := p
  buf := []
  head := 0
  tail := 0
  version := 0
  initialized := false
  running := false
  derrPending := false
  derrCode := 0
  ringLock := .free
  sendLock := .free
  scan := none
  rxFrame := resetFrame p.codec
  txbuf := []
  sink := []
  events := []
  responses := []
  inputs := []
  draws := []
  caller := 0
  freeCount := 0

/-- Reset under the configuration K1 of 95_test_vectors.md.
DESIGN CHOICE (entry 2): the spec leaves the configuration open. -/
def State.reset : State := State.resetWith .k1

/-- A fault stops the machine. PA01-FTB has none: "no traps, no exception vectors and no interrupts" (60_exceptions.md R270), so
the type has no constructor and no step can fault. -/
inductive Fault where
  deriving DecidableEq, Repr

/-- Why the model gives no meaning. -/
inductive Refusal where
  /-- Raised by an arm of `exec` that has no meaning yet. Safe. -/
  | notModelled (mnemonic : String)
  /-- Raised by `step` in a state whose configuration breaks 00_scope.md R8, which refuses it. Safe. -/
  | badParams
  /-- Raised by the meaning of the SEND form of the codec this block does not have; no word of the block's decodes to it
  (30_encoding.md R96). Safe. -/
  | otherCodec
  deriving DecidableEq, Repr

/-- What an instruction's meaning answers. -/
abbrev Result := Host.Outcome State Fault Refusal

/-- What the next place of the schedule asks for: run a decoded command, or a step that is already done, or no meaning. -/
inductive Fetched where
  | run (i : Instr) (s : State)
  | done (s : State)
  | stop (r : Refusal)
  deriving DecidableEq, Repr

end Sys2Proof.Machine
end

