-- ==== Sys2Proof/Machine/Ops.lean ====
section
/-! DEFINITION. The shared operations: legality, storage, output streams, responses, locks, the byte ring, RAISE_DERR. -/

namespace Sys2Proof.Machine

/-! ### Configuration -/

/-- Parameter legality (00_scope.md R8). -/
def legal (p : Params) : Bool :=
  decide (2 ≤ p.C) && decide (1 ≤ p.minLen) && decide (p.minLen ≤ p.maxLen) && decide (p.maxLen ≤ p.C - 1)
    && decide (p.minLen ≤ p.txLen) && !p.crcRefin && !p.crcRefout
    && decide ([slipEnd, slipEsc, p.slipEscEnd, p.slipEscEsc].Nodup)
    && (decide (p.codec ≠ .slip) || decide (p.sync = slipEnd))
    && (decide (p.codec ≠ .crc16) || decide (p.minLen ≤ 5))

/-! ### Storage -/

/-- The canonical form: indices strictly rising. -/
abbrev Memory.wf (m : Memory) : Prop := (m.map Prod.fst).Pairwise (· < ·)

/-- The value slot k was last given, if anything was written to it. -/
def Memory.find (m : Memory) (k : Nat) : Option Byte :=
  match m with
  | [] => none
  | (a, b) :: rest => if a = k then some b else Memory.find rest k

/-- RingRead (00_scope.md R11): the byte in slot k of `buf`. A slot nothing has written reads as a free value (R40, entry 3). -/
def Memory.read (m : Memory) (k : Nat) : Byte := (m.find k).getD (Config.freeSlot k)

/-- RingWrite (00_scope.md R11): store byte b in slot k. -/
def Memory.write (m : Memory) (k : Nat) (b : Byte) : Memory :=
  match m with
  | [] => [(k, b)]
  | (a, v) :: rest =>
    if k < a then (k, b) :: (a, v) :: rest
    else if k = a then (k, b) :: rest
    else (a, v) :: Memory.write rest k b

/-- Store a byte string in consecutive slots of a circular storage of size c, from slot k on (20_memory.md R62). -/
def Memory.writeAll (c : Nat) (m : Memory) (k : Nat) : Bytes → Memory
  | [] => m
  | b :: bs => Memory.writeAll c (m.write (k % c) b) (k + 1) bs

/-- The byte string in n consecutive slots of a circular storage of size c, from slot k on (20_memory.md R62). -/
def Memory.readAll (c : Nat) (m : Memory) (k n : Nat) : Bytes :=
  (List.range n).map fun j => m.read ((k + j) % c)

/-! ### Output streams and responses -/

/-- emit: append an event to the event stream (00_scope.md R11, 10_state.md R35). -/
def emit (e : Event) (s : State) : State := { s with events := s.events ++ [e] }

/-- sink_append: append a byte string to the sink stream (00_scope.md R11, 10_state.md R34). -/
def sinkAppend (b : Bytes) (s : State) : State := { s with sink := s.sink ++ b }

/-- Return a response to an issuer. -/
def respondTo (issuer : Nat) (st : Status) (result : Word16) (dout : Bytes) (s : State) : State :=
  { s with responses := s.responses ++ [{ issuer := issuer, status := st, result := result, dout := dout }] }

/-- respond(status, result, dout) of 00_scope.md R11, to the issuer of the command being performed. -/
def respond (st : Status) (result : Word16) (dout : Bytes) (s : State) : State :=
  respondTo s.caller st result dout s

/-- The error mechanism of 60_exceptions.md R270, the same for every command: a status with RESULT 0 and empty DOUT (R100);
"nothing is saved, no mode changes, control does not go anywhere, and there is nothing to return from". -/
def reject (st : Status) (s : State) : State := respond st 0 [] s

/-- A count as the 16-bit RESULT or event argument. Every count given to it fits (it is at most C - 1, TX_MAX or N). -/
def word16 (n : Nat) : Word16 := BitVec.ofNat 16 n

/-! ### Codes -/

/-- The code column of R99. -/
def Status.code : Status → Byte
  | .ok => 0x00
  | .lockBusy => 0x01
  | .notInit => 0x02
  | .alreadyInit => 0x03
  | .backpressureDrop => 0x04
  | .sendGuardDrop => 0x05
  | .deferredError => 0x06
  | .illegalCmd => 0x07
  | .truncated => 0x08
  | .paramError => 0x09

/-- The code column of R104. -/
def Event.code : Event → Byte
  | .rawRx _ => 0x01
  | .rawTx _ => 0x02
  | .decodedRx _ => 0x03
  | .decodedTx => 0x04
  | .pollTick => 0x05
  | .initComplete => 0x06
  | .logTruncate _ _ => 0x10
  | .logBackpressure _ _ => 0x11
  | .logSendGuard _ => 0x12
  | .logDeferredError _ => 0x13

/-! ### Locks -/

/-- The draw of lock_fail() for the next acquisition (20_memory.md R68): false under NEVER; under ANY the next free draw
(an exhausted list stands for draws that do not fail, entry 7). -/
def lockFail (s : State) : Bool :=
  match s.cfg.lockFailMode with
  | .never => false
  | .any => s.draws.headD false

/-- The state once that draw is taken. -/
def drawn (s : State) : State :=
  match s.cfg.lockFailMode with
  | .never => s
  | .any => { s with draws := s.draws.tail }

/-- Take or release ring_lock. -/
def setRingLock (l : Lock) (s : State) : State := { s with ringLock := l }

/-- Take or release send_lock. -/
def setSendLock (l : Lock) (s : State) : State := { s with sendLock := l }

/-- One acquisition of ring_lock, the body under it, and its release, inside one atomic step (10_state.md R32).
An acquisition fails when the draw says so, or when the lock is held, which R67 rules out between steps. -/
def withRingLock (busy body : State → State) (s : State) : State :=
  if lockFail s || decide (s.ringLock = .held) then busy (drawn s)
  else setRingLock .free (body (setRingLock .held (drawn s)))

/-- The same for send_lock. -/
def withSendLock (busy body : State → State) (s : State) : State :=
  if lockFail s || decide (s.sendLock = .held) then busy (drawn s)
  else setSendLock .free (body (setSendLock .held (drawn s)))

/-! ### The byte ring -/

/-- data_size() of 10_state.md R25. -/
def dataSize (s : State) : Nat := (s.tail.toNat + s.cfg.C - s.head.toNat) % s.cfg.C

/-- remaining_size() of 10_state.md R25. -/
def remainingSize (s : State) : Nat := (s.cfg.C - 1) - dataSize s

/-- How many bytes of D ring_enqueue accepts (40_ring.md R131). -/
def enqueueCount (D : Bytes) (s : State) : Nat := min D.length (remainingSize s)

/-- version after a ring operation that moved a bytes (R27, R131, R133). -/
def bumpVersion (a : Nat) (v : Word32) : Word32 := if a > 0 then v + 1 else v

/-- The storing part of ring_enqueue: a bytes of D at tail (40_ring.md R131). -/
def ringStore (D : Bytes) (a : Nat) (s : State) : State :=
  { s with
    buf := Memory.writeAll s.cfg.C s.buf s.tail.toNat (D.take a)
    tail := word16 ((s.tail.toNat + a) % s.cfg.C)
    version := bumpVersion a s.version }

/-- ring_enqueue(D) of 40_ring.md R131. -/
def ringEnqueue (D : Bytes) (s : State) : State :=
  let a := enqueueCount D s
  let t := ringStore D a s
  if a < D.length then emit (.logTruncate (word16 D.length) (word16 a)) t else t

/-- How many bytes a peek or discard of n bytes reaches (40_ring.md R132, R133). -/
def takeCount (n : Nat) (s : State) : Nat := min n (dataSize s)

/-- ring_peek(n) of 40_ring.md R132. -/
def ringPeek (n : Nat) (s : State) : Bytes := Memory.readAll s.cfg.C s.buf s.head.toNat (takeCount n s)

/-- ring_discard(n) of 40_ring.md R133. -/
def ringDiscard (n : Nat) (s : State) : State :=
  let a := takeCount n s
  { s with
    head := word16 ((s.head.toNat + a) % s.cfg.C)
    version := bumpVersion a s.version }

/-- The stored bytes, oldest first. -/
def stored (s : State) : Bytes := ringPeek (dataSize s) s

/-- A command of 40_ring.md: one atomic step under ring_lock (R130). -/
def ringCommand (body : State → State) (s : State) : Result :=
  .next (withRingLock (reject .lockBusy) body s)

/-! ### The environment -/

/-- RAISE_DERR(code) of 60_exceptions.md R275. -/
def raiseDerr (code : Byte) (s : State) : State :=
  if s.derrPending then s else { s with derrPending := true, derrCode := code }

/-! ### The schedule -/

/-- Put a command first in the schedule, from an issuer that does not wait for the active POLL. -/
def pushCommand (w : Word32) (din : Bytes) (s : State) : State :=
  let issuer := match s.scan with
    | none => 0
    | some sc => sc.issuer + 1
  { s with inputs := .command issuer w din :: s.inputs }

end Sys2Proof.Machine
end

