-- ==== Sys2Proof/Machine/Flags.lean ====
section
/-! DEFINITION. The status flags (10_state.md R28 to R31) and the FLAGS register (R38). -/

namespace Sys2Proof.Machine

/-- A bit at position k of a register. -/
def flagBit (b : Bool) (k : Nat) : Word16 := if b then 1#16 <<< k else 0#16

/-- FLAGS: [0] initialized, [1] running, [2] derr_pending, [3] poll_active, [15:4] = 0 (R37, R38). -/
def flagsWord (s : State) : Word16 :=
  flagBit s.initialized 0 ||| flagBit s.running 1 ||| flagBit s.derrPending 2 ||| flagBit s.pollActive 3

/-- INIT's effect on the flags: initialized set, running cleared (41_transport.md R160). -/
def setInitialized (s : State) : State := { s with initialized := true, running := false }

/-- P1's effect on the flags (R29, 41_transport.md R171). -/
def setRunning (s : State) : State := { s with running := true }

/-- POLL's report clears derr_pending and keeps derr_code (R30). -/
def clearDerr (s : State) : State := { s with derrPending := false }

end Sys2Proof.Machine
end

