-- ==== Sys2Proof/Machine/Operands.lean ====
section
/-! DEFINITION. What an operand of a command names or measures: the register map of REG_READ (10_state.md R37), and lengths as RESULT. -/

namespace Sys2Proof.Machine

/-- CODEC as a register bit: 0 = CRC16, 1 = SLIP (R7, R37). -/
def codecBit : Codec → Word16
  | .crc16 => 0
  | .slip => 1

/-- The value of a register (R37). -/
def regValue (s : State) : Reg → Word16
  | .capacity => s.cfg.capacity
  | .frameMin => s.cfg.frameMin
  | .frameMax => s.cfg.frameMax
  | .sync => s.cfg.sync.setWidth 16
  | .codec => codecBit s.cfg.codec
  | .head => s.head
  | .tail => s.tail
  | .versionLo => s.version.extractLsb' 0 16
  | .versionHi => s.version.extractLsb' 16 16
  | .flags => flagsWord s
  | .derrCode => s.derrCode.setWidth 16
  | .crcPoly => crcPoly
  | .crcInit => s.cfg.crcInit
  | .crcXorout => s.cfg.crcXorout
  | .crcReflect => flagBit s.cfg.crcRefin 0 ||| flagBit s.cfg.crcRefout 1
  | .slipCodes => slipEsc ++ slipEnd
  | .slipEscCodes => s.cfg.slipEscEsc ++ s.cfg.slipEscEnd
  | .txMax => s.cfg.txMax
  | .dataSize => word16 (dataSize s)

/-- RESULT of SLIP_PACK: the frame's length (43_slip.md R248). RESULT has 16 bits (R94), and R248 does not say what it is for a
longer frame: there it is a free value, a function of the body (entry 9). -/
def packedLength (body frame : Bytes) : Word16 :=
  if frame.length < 65536 then word16 frame.length else Config.freeLength body

end Sys2Proof.Machine
end

