-- ==== Sys2Proof/Machine/Crc16.lean ====
section
/-! DEFINITION. The CRC-16 generator and the length+CRC16 codec (42_crc16.md). -/

namespace Sys2Proof.Machine

/-- One shift of R211 and of the bitwise form of R212. -/
def crcShift (c : Word16) : Word16 := if c.msb then (c <<< 1) ^^^ crcPoly else c <<< 1

/-- Eight shifts. -/
def crcShift8 (c : Word16) : Word16 :=
  crcShift (crcShift (crcShift (crcShift (crcShift (crcShift (crcShift (crcShift c)))))))

/-- The table entry T[n] (R211). -/
def crcTable (n : Byte) : Word16 := crcShift8 (n.setWidth 16 <<< 8)

/-- The table-driven step of one byte (R212). -/
def crcStep (c : Word16) (b : Byte) : Word16 := (c <<< 8) ^^^ crcTable ((c >>> 8).setWidth 8 ^^^ b)

/-- crc16(D) (R212). -/
def crc16 (p : Params) (D : Bytes) : Word16 := D.foldl crcStep p.crcInit ^^^ p.crcXorout

/-- The bitwise step of one byte (R212, "equivalently, bit by bit"). -/
def crcStepBits (c : Word16) (b : Byte) : Word16 := crcShift8 (c ^^^ (b.setWidth 16 <<< 8))

/-- crc16(D) bit by bit (R212); no meaning calls it. -/
def crc16Bits (p : Params) (D : Bytes) : Word16 := D.foldl crcStepBits p.crcInit ^^^ p.crcXorout

/-- crc_lo (R213). -/
def crcLo (c : Word16) : Byte := c.setWidth 8

/-- crc_hi (R213). -/
def crcHi (c : Word16) : Byte := (c >>> 8).setWidth 8

/-- The bytes of a CRC frame that the CRC covers (R213). -/
def crcHeader (p : Params) (cmd : Byte) (payload : Bytes) : Bytes :=
  [p.sync, cmd, BitVec.ofNat 8 payload.length] ++ payload

/-- crc_pack(cmd, P) (R215). -/
def crcPack (p : Params) (cmd : Byte) (payload : Bytes) : Bytes :=
  if payload.length > 255 then []
  else
    let H := crcHeader p cmd payload
    let c := crc16 p H
    H ++ [crcLo c, crcHi c]

/-- crc_unpack(X) (R216): the consumed length, the command byte and the payload; none is (0, -). -/
def crcUnpack (p : Params) (X : Bytes) : Option (Nat × Byte × Bytes) :=
  let r := X.length
  if r < 5 ∨ X.getD 0 0 ≠ p.sync then none
  else
    let n := (X.getD 2 0).toNat
    if r < p.minLen ∨ n > r - p.minLen then none
    else if n + 5 > r then none
    else
      let c := crc16 p (X.take (n + 3))
      if X.getD (n + 3) 0 ≠ crcLo c ∨ X.getD (n + 4) 0 ≠ crcHi c then none
      else some (n + 5, X.getD 1 0, (X.drop 3).take n)

/-- CRC16_COMPUTE (R218). -/
def execCrc16Compute (data : Bytes) (s : State) : Result := .next (respond .ok (crc16 s.cfg data) [] s)

/-- CRC_PACK (R219). -/
def execCrcPack (cmd : Byte) (payload : Bytes) (s : State) : Result :=
  if payload.length > 255 then .next (reject .paramError s)
  else
    let B := crcPack s.cfg cmd payload
    .next (respond .ok (word16 B.length) B s)

/-- CRC_UNPACK (R220). -/
def execCrcUnpack (data : Bytes) (s : State) : Result :=
  match crcUnpack s.cfg data with
  | none => .next (respond .ok 0 [] s)
  | some (L, cmd, payload) => .next (respond .ok (word16 L) ([cmd, BitVec.ofNat 8 payload.length] ++ payload) s)

end Sys2Proof.Machine
end

