-- ==== Sys2Proof/Machine/Slip.lean ====
section
/-! DEFINITION. The SLIP-style byte-stuffing codec and its checksum (43_slip.md). -/

namespace Sys2Proof.Machine

/-- The sum of a byte string modulo 256 (R242). -/
def byteSum (D : Bytes) : Byte := D.foldl (· + ·) 0

/-- slip_cks(D) (R242). -/
def slipChecksum (D : Bytes) : Byte := 0xFF ^^^ byteSum D

/-- esc(b) (R244). -/
def slipEscape (p : Params) (b : Byte) : Bytes :=
  if b = slipEnd then [slipEsc, p.slipEscEnd]
  else if b = slipEsc then [slipEsc, p.slipEscEsc]
  else [b]

/-- esc of every byte of a string, in order (R243). -/
def slipStuff (p : Params) (S : Bytes) : Bytes := S.flatMap (slipEscape p)

/-- slip_pack(D) (R245). -/
def slipPack (p : Params) (D : Bytes) : Bytes :=
  if D.length = 0 then []
  else [slipEnd] ++ slipStuff p (D ++ [slipChecksum D]) ++ [slipEnd]

/-- Part 1 of slip_unpack (R246): the index of the closing delimiter, the first END not preceded by an unescaped ESC; k is the
index of the first byte of the list. -/
def slipClose (k : Nat) (escaped : Bool) : Bytes → Option Nat
  | [] => none
  | b :: bs =>
    if escaped then slipClose (k + 1) false bs
    else if b = slipEsc then slipClose (k + 1) true bs
    else if b = slipEnd then some k
    else slipClose (k + 1) false bs

/-- Part 2 of slip_unpack (R246): the unstuffed content; none when an ESC is followed by anything but ESC_END or ESC_ESC. -/
def slipUnstuff (p : Params) : Bytes → Option Bytes
  | [] => some []
  | [b] => if b = slipEsc then none else some [b]
  | b :: e :: rest =>
    if b = slipEsc then
      if e = p.slipEscEnd then (slipUnstuff p rest).map (slipEnd :: ·)
      else if e = p.slipEscEsc then (slipUnstuff p rest).map (slipEsc :: ·)
      else none
    else (slipUnstuff p (e :: rest)).map (b :: ·)

/-- slip_unpack(X) (R246): the consumed length and the body; none is (0, -). -/
def slipUnpack (p : Params) (X : Bytes) : Option (Nat × Bytes) :=
  if X.length < 2 ∨ X.getD 0 0 ≠ slipEnd then none
  else
    match slipClose 1 false (X.drop 1) with
    | none => none
    | some close =>
      match slipUnstuff p ((X.take close).drop 1) with
      | none => none
      | some U =>
        if U.length < 2 then none
        else
          let D := U.dropLast
          if U.getLastD 0 ≠ slipChecksum D then none else some (close + 1, D)

/-- SLIP_CHECKSUM (R247). -/
def execSlipChecksum (data : Bytes) (s : State) : Result :=
  .next (respond .ok ((slipChecksum data).setWidth 16) [] s)

/-- SLIP_PACK (R248). -/
def execSlipPack (body : Bytes) (s : State) : Result :=
  if body.length = 0 then .next (reject .paramError s)
  else
    let B := slipPack s.cfg body
    .next (respond .ok (packedLength body B) B s)

/-- SLIP_UNPACK (R249). -/
def execSlipUnpack (data : Bytes) (s : State) : Result :=
  match slipUnpack s.cfg data with
  | none => .next (respond .ok 0 [] s)
  | some (L, D) => .next (respond .ok (word16 L) D s)

end Sys2Proof.Machine
end

