-- ==== Sys2Proof/Machine/Transport.lean ====
section
/-! DEFINITION. The frame transport commands INIT, READ_HOOK, SEND, REG_READ and the codec dispatch (41_transport.md). -/

namespace Sys2Proof.Machine

/-- unpack(X) of the block's codec (R173). -/
def unpack (p : Params) (X : Bytes) : Option (Nat × Frame) :=
  match p.codec with
  | .crc16 => (crcUnpack p X).map fun (L, cmd, payload) => (L, .crc cmd payload)
  | .slip => (slipUnpack p X).map fun (L, D) => (L, .slip D)

/-- pack(F) (R173), by the kind of the frame. -/
def pack (p : Params) : Frame → Bytes
  | .crc cmd payload => crcPack p cmd payload
  | .slip body => slipPack p body

/-- INIT (R160). -/
def execInit (s : State) : Result :=
  if s.initialized then .next (reject .alreadyInit s)
  else .next (respond .ok 0 [] (emit .initComplete (setInitialized s)))

/-- READ_HOOK (R161). -/
def execReadHook (chunk : Bytes) (s : State) : Result :=
  .next (withRingLock (reject .lockBusy) (fun t =>
    let r := remainingSize t
    if chunk.length > r then
      reject .backpressureDrop (emit (.logBackpressure (word16 chunk.length) (word16 r)) t)
    else respond .ok (word16 (enqueueCount chunk t)) [] (ringEnqueue chunk t)) s)

/-- A packed result longer than TX_MAX is treated as a failed pack (R189). -/
def boundTx (p : Params) (B : Bytes) : Bytes := if B.length > p.txLen then [] else B

/-- txbuf[0 .. len(B)) <- B (R188). -/
def storeTx (B : Bytes) (s : State) : State := { s with txbuf := Memory.writeAll s.cfg.txLen s.txbuf 0 B }

/-- SEND under send_lock, from the packed bytes on (R188 to R191). -/
def sendPacked (packed : Bytes) (s : State) : State :=
  let B := boundTx s.cfg packed
  let t := emit (.rawTx B) (storeTx B s)
  if B.length ≥ s.cfg.minLen then respond .ok (word16 B.length) [] (sinkAppend B t)
  else respond .sendGuardDrop (word16 B.length) [] (emit (.logSendGuard (word16 B.length)) t)

/-- SEND's checks in the order of R188, then the send path. -/
def send (packed : Bytes) (s : State) : State :=
  if !s.initialized then reject .notInit s
  else withSendLock (reject .lockBusy) (sendPacked packed) s

/-- SEND, CODEC = CRC16 (R188). -/
def execSendCrc (cmd : Byte) (payload : Bytes) (s : State) : Result :=
  if s.cfg.codec = .crc16 then .next (send (pack s.cfg (.crc cmd payload)) s) else .refused .otherCodec

/-- SEND, CODEC = SLIP (R188). -/
def execSendSlip (body : Bytes) (s : State) : Result :=
  if s.cfg.codec = .slip then .next (send (pack s.cfg (.slip body)) s) else .refused .otherCodec

/-- REG_READ (R195). -/
def execRegRead (r : Reg) (s : State) : Result := .next (respond .ok (regValue s r) [] s)

end Sys2Proof.Machine
end

