-- ==== Sys2Proof/Machine/Poll.lean ====
section
/-! DEFINITION. POLL: the frame-sync and resynchronization scanner, as its micro-steps P0 to P4 (41_transport.md R170 to R183). -/

namespace Sys2Proof.Machine

/-- A free value for `rxFrame` that keeps R12's limits for a frame of the codec's kind (10_state.md R36, entry 4). -/
def freeFrame (codec : Codec) (n : Nat) : Frame :=
  match codec with
  | .crc16 => .crc (Config.freeFrameByte n) ((Config.freeFrameBytes n).take 255)
  | .slip => .slip (Config.freeFrameByte n :: Config.freeFrameBytes n)

/-- rx_frame <- F (R181). -/
def setRxFrame (F : Frame) (s : State) : State := { s with rxFrame := F }

/-- poll_active and the POLL's locals (10_state.md R33). -/
def setScan (o : Option Scan) (s : State) : State := { s with scan := o }

/-- rx_frame after a failed unpack attempt: unspecified (10_state.md R36). -/
def spoilRxFrame (s : State) : State :=
  { s with rxFrame := freeFrame s.cfg.codec s.freeCount, freeCount := s.freeCount + 1 }

/-- end(st, r) of R174: poll_active is cleared and the POLL's issuer gets its response. -/
def pollEnd (sc : Scan) (st : Status) (r : Nat) (s : State) : State :=
  respondTo sc.issuer st (word16 r) [] (setScan none s)

/-- The scan loop of R174 over the rest of the window, from scan index i on, up to the next match: that match's index, or none
when the loop ends (R178, R179, R180, R182). -/
def nextMatch (p : Params) (i : Nat) : Bytes → Option Nat
  | [] => none
  | b :: bs =>
    if b ≠ p.sync then nextMatch p (i + 1) bs
    else if (b :: bs).length < p.minLen then none
    else
      match unpack p (b :: bs) with
      | none => nextMatch p (i + 1) bs
      | some (L, _) => if L = 0 ∨ L > (b :: bs).length then nextMatch p (i + 1) bs else some i

/-- Whether that scan meets a false positive, a failed unpack attempt (R180). -/
def meetsFalsePositive (p : Params) : Bytes → Bool
  | [] => false
  | b :: bs =>
    if b ≠ p.sync then meetsFalsePositive p bs
    else if (b :: bs).length < p.minLen then false
    else
      match unpack p (b :: bs) with
      | none => true
      | some (L, _) => decide (L = 0 ∨ L > (b :: bs).length)

/-- The POLL goes on from its scan index: the local scan, which "is not a step" (R172), then either P4 is next, or the POLL ends
with (OK, count) (R183). DEDUCED (entry 10): the scan belongs to the micro-step before it. -/
def pollScan (sc : Scan) (s : State) : State :=
  let rest := sc.window.drop sc.pos
  let t := if meetsFalsePositive s.cfg rest then spoilRxFrame s else s
  match nextMatch s.cfg sc.pos rest with
  | some i => setScan (some { sc with phase := .frame, pos := i }) t
  | none => pollEnd sc .ok sc.count t

/-- POLL's first micro-step P0 (R170): the entry checks in their order, or poll_active set. -/
def execPoll (s : State) : Result :=
  if !s.initialized then .next (reject .notInit s)
  else if s.pollActive then .next (reject .lockBusy s)
  else if s.derrPending then
    .next (respond .deferredError (s.derrCode.setWidth 16) [] (emit (.logDeferredError s.derrCode) (clearDerr s)))
  else
    .next (setScan (some { issuer := s.caller, phase := .start, window := [], pos := 0, base := 0, count := 0 }) s)

/-- P1, the first-poll clear (R171). -/
def pollClear (sc : Scan) (s : State) : State :=
  withRingLock (pollEnd sc .lockBusy 0) (fun t => setRunning (ringDiscard (dataSize t) t)) s

/-- s of R177: the index of the window's first SYNC byte, or w if none. -/
def resyncCount (p : Params) (W : Bytes) : Nat := W.findIdx (· = p.sync)

/-- P2, the window peek (R175), and what follows it up to the next micro-step (R176, R177). -/
def pollPeek (sc : Scan) (s : State) : State :=
  withRingLock (pollEnd sc .lockBusy 0) (fun t =>
    let W := ringPeek t.cfg.maxLen t
    let k := resyncCount t.cfg W
    if W.length = 0 then pollEnd sc .ok 0 t
    else
      let t := emit (.rawRx W) t
      if k > 0 then setScan (some { sc with phase := .resync, window := W, pos := k, base := 0, count := 0 }) t
      else pollScan { sc with window := W, pos := 0, base := 0, count := 0 } t) s

/-- P3, the resynchronization discard (R177). -/
def pollResync (sc : Scan) (s : State) : State :=
  withRingLock (pollEnd sc .lockBusy 0) (fun t =>
    pollScan { sc with base := sc.pos, count := 0 } (ringDiscard sc.pos t)) s

/-- P4, one decoded frame (R181). When no frame stands at the scan index, which `State.Inv` rules out, the scan goes on. -/
def pollFrame (sc : Scan) (s : State) : State :=
  withRingLock (pollEnd sc .lockBusy sc.count) (fun t =>
    match unpack t.cfg (sc.window.drop sc.pos) with
    | none => pollScan sc t
    | some (L, F) =>
      let v := emit (.decodedRx F) (setRxFrame F (ringDiscard (sc.pos + L - sc.base) t))
      pollScan { sc with base := sc.pos + L, count := sc.count + 1, pos := sc.pos + L } v) s

/-- The next micro-step of the active POLL; nothing when there is none. -/
def pollTurn (s : State) : State :=
  match s.scan with
  | none => s
  | some sc =>
    match sc.phase with
    | .start => if s.running then pollPeek sc s else pollClear sc s
    | .resync => pollResync sc s
    | .frame => pollFrame sc s

end Sys2Proof.Machine
end

