-- ==== Sys2Proof/Machine/Ring.lean ====
section
/-! DEFINITION. The byte ring commands (40_ring.md). -/

namespace Sys2Proof.Machine

/-- RING_ENQUEUE (R134). -/
def execRingEnqueue (data : Bytes) (s : State) : Result :=
  ringCommand (fun t =>
    let a := enqueueCount data t
    respond (if a < data.length then .truncated else .ok) (word16 a) [] (ringEnqueue data t)) s

/-- RING_DEQUEUE (R135). -/
def execRingDequeue (n : Word16) (s : State) : Result :=
  ringCommand (fun t =>
    let out := ringPeek n.toNat t
    respond .ok (word16 out.length) out (ringDiscard out.length t)) s

/-- RING_PEEK (R136). -/
def execRingPeek (n : Word16) (s : State) : Result :=
  ringCommand (fun t =>
    let out := ringPeek n.toNat t
    respond .ok (word16 out.length) out t) s

/-- RING_DISCARD (R137). -/
def execRingDiscard (n : Word16) (s : State) : Result :=
  ringCommand (fun t => respond .ok (word16 (takeCount n.toNat t)) [] (ringDiscard n.toNat t)) s

/-- RING_REMAINING (R138). -/
def execRingRemaining (s : State) : Result :=
  ringCommand (fun t => respond .ok (word16 (remainingSize t)) [] t) s

/-- RING_DATA_SIZE (R139). -/
def execRingDataSize (s : State) : Result :=
  ringCommand (fun t => respond .ok (word16 (dataSize t)) [] t) s

end Sys2Proof.Machine
end

