-- ==== Sys2Proof/Machine/Dispatch.lean ====
section
/-! DEFINITION. One arm per command of spec/opcode_table.json. -/

namespace Sys2Proof.Machine

def exec (i : Instr) (s : State) : Host.Outcome State Fault Refusal :=
  match i with
  | .init => Sys2Proof.Machine.execInit s
  | .poll => Sys2Proof.Machine.execPoll s
  | .sendCrc cmd payload => Sys2Proof.Machine.execSendCrc cmd payload s
  | .sendSlip body => Sys2Proof.Machine.execSendSlip body s
  | .readHook chunk => Sys2Proof.Machine.execReadHook chunk s
  | .regRead r => Sys2Proof.Machine.execRegRead r s
  | .ringEnqueue data => Sys2Proof.Machine.execRingEnqueue data s
  | .ringDequeue n => Sys2Proof.Machine.execRingDequeue n s
  | .ringPeek n => Sys2Proof.Machine.execRingPeek n s
  | .ringDiscard n => Sys2Proof.Machine.execRingDiscard n s
  | .ringRemaining => Sys2Proof.Machine.execRingRemaining s
  | .ringDataSize => Sys2Proof.Machine.execRingDataSize s
  | .crc16Compute data => Sys2Proof.Machine.execCrc16Compute data s
  | .crcPack cmd payload => Sys2Proof.Machine.execCrcPack cmd payload s
  | .crcUnpack data => Sys2Proof.Machine.execCrcUnpack data s
  | .slipPack body => Sys2Proof.Machine.execSlipPack body s
  | .slipUnpack data => Sys2Proof.Machine.execSlipUnpack data s
  | .slipChecksum data => Sys2Proof.Machine.execSlipChecksum data s

end Sys2Proof.Machine
end

