-- ==== Sys2Proof/WellFormed.lean ====
section
/-! DEFINITION. Which commands a block of a given CODEC has (30_encoding.md R91, R92, R96). -/

namespace Sys2Proof

/-- The byte string a data command carries in DIN; empty for every other command (R92). -/
def Instr.din : Instr → Bytes
  | .init => []
  | .poll => []
  | .sendCrc _ payload => payload
  | .sendSlip body => body
  | .readHook chunk => chunk
  | .regRead _ => []
  | .ringEnqueue data => data
  | .ringDequeue _ => []
  | .ringPeek _ => []
  | .ringDiscard _ => []
  | .ringRemaining => []
  | .ringDataSize => []
  | .crc16Compute data => data
  | .crcPack _ payload => payload
  | .crcUnpack data => data
  | .slipPack body => body
  | .slipUnpack data => data
  | .slipChecksum data => data

/-- The SEND form belongs to the codec (R96: ARG8 is used by SEND only when CODEC = CRC16). -/
def Instr.codecOk (codec : Codec) : Instr → Bool
  | .sendCrc _ _ => decide (codec = .crc16)
  | .sendSlip _ => decide (codec = .slip)
  | .init => true
  | .poll => true
  | .readHook _ => true
  | .regRead _ => true
  | .ringEnqueue _ => true
  | .ringDequeue _ => true
  | .ringPeek _ => true
  | .ringDiscard _ => true
  | .ringRemaining => true
  | .ringDataSize => true
  | .crc16Compute _ => true
  | .crcPack _ _ => true
  | .crcUnpack _ => true
  | .slipPack _ => true
  | .slipUnpack _ => true
  | .slipChecksum _ => true

/-- A command of a block with this codec: DIN's length fits the 16-bit N (R91, R93), and the SEND form is the codec's. -/
def Instr.wellFormed (codec : Codec) (i : Instr) : Bool :=
  decide (i.din.length < 65536) && i.codecOk codec

end Sys2Proof
end

