-- ==== Sys2Proof/Decode.lean ====
section
/-! DEFINITION. Decoding and encoding of a command: a 32-bit word and DIN (30_encoding.md R91 to R98). -/

namespace Sys2Proof

/-- OPCODE values assigned by R95, by name. -/
inductive Opcode where
  | init
  | poll
  | send
  | readHook
  | regRead
  | ringEnqueue
  | ringDequeue
  | ringPeek
  | ringDiscard
  | ringRemaining
  | ringDataSize
  | crc16Compute
  | crcPack
  | crcUnpack
  | slipPack
  | slipUnpack
  | slipChecksum
  deriving DecidableEq, Repr

/-- The OPCODE column of R95. -/
def Opcode.byte : Opcode → Byte
  | .init => 0x01
  | .poll => 0x02
  | .send => 0x03
  | .readHook => 0x04
  | .regRead => 0x0F
  | .ringEnqueue => 0x10
  | .ringDequeue => 0x11
  | .ringPeek => 0x12
  | .ringDiscard => 0x13
  | .ringRemaining => 0x14
  | .ringDataSize => 0x15
  | .crc16Compute => 0x20
  | .crcPack => 0x21
  | .crcUnpack => 0x22
  | .slipPack => 0x30
  | .slipUnpack => 0x31
  | .slipChecksum => 0x32

/-- The opcode a byte stands for; none for a reserved value (R97). -/
def Opcode.ofByte (b : Byte) : Option Opcode :=
  match b.toNat with
  | 0x01 => some .init
  | 0x02 => some .poll
  | 0x03 => some .send
  | 0x04 => some .readHook
  | 0x0F => some .regRead
  | 0x10 => some .ringEnqueue
  | 0x11 => some .ringDequeue
  | 0x12 => some .ringPeek
  | 0x13 => some .ringDiscard
  | 0x14 => some .ringRemaining
  | 0x15 => some .ringDataSize
  | 0x20 => some .crc16Compute
  | 0x21 => some .crcPack
  | 0x22 => some .crcUnpack
  | 0x30 => some .slipPack
  | 0x31 => some .slipUnpack
  | 0x32 => some .slipChecksum
  | _ => none

/-- ARG8 is used by CRC_PACK, REG_READ, and by SEND only when CODEC = CRC16 (R96). -/
def Opcode.usesArg8 (codec : Codec) : Opcode → Bool
  | .crcPack => true
  | .regRead => true
  | .send => decide (codec = .crc16)
  | _ => false

/-- N is unused by INIT, POLL, REG_READ, RING_REMAINING, RING_DATA_SIZE (R96). -/
def Opcode.usesCount : Opcode → Bool
  | .init | .poll | .regRead | .ringRemaining | .ringDataSize => false
  | _ => true

/-- The data commands, whose DIN has length N (R92). -/
def Opcode.isData : Opcode → Bool
  | .send | .readHook | .ringEnqueue | .crc16Compute | .crcPack | .crcUnpack
  | .slipPack | .slipUnpack | .slipChecksum => true
  | _ => false

/-- The register of a number; none for 0x13..0xFF (R37). -/
def Reg.ofNumber (b : Byte) : Option Reg :=
  match b.toNat with
  | 0x00 => some .capacity
  | 0x01 => some .frameMin
  | 0x02 => some .frameMax
  | 0x03 => some .sync
  | 0x04 => some .codec
  | 0x05 => some .head
  | 0x06 => some .tail
  | 0x07 => some .versionLo
  | 0x08 => some .versionHi
  | 0x09 => some .flags
  | 0x0A => some .derrCode
  | 0x0B => some .crcPoly
  | 0x0C => some .crcInit
  | 0x0D => some .crcXorout
  | 0x0E => some .crcReflect
  | 0x0F => some .slipCodes
  | 0x10 => some .slipEscCodes
  | 0x11 => some .txMax
  | 0x12 => some .dataSize
  | _ => none

/-- The number of a register (R37). -/
def Reg.number : Reg → Byte
  | .capacity => 0x00
  | .frameMin => 0x01
  | .frameMax => 0x02
  | .sync => 0x03
  | .codec => 0x04
  | .head => 0x05
  | .tail => 0x06
  | .versionLo => 0x07
  | .versionHi => 0x08
  | .flags => 0x09
  | .derrCode => 0x0A
  | .crcPoly => 0x0B
  | .crcInit => 0x0C
  | .crcXorout => 0x0D
  | .crcReflect => 0x0E
  | .slipCodes => 0x0F
  | .slipEscCodes => 0x10
  | .txMax => 0x11
  | .dataSize => 0x12

/-- OPCODE, bits [31:24] of the word (R91). -/
def opcodeField (w : Word32) : Byte := w.extractLsb' 24 8

/-- ARG8, bits [23:16] (R91). -/
def arg8Field (w : Word32) : Byte := w.extractLsb' 16 8

/-- N, bits [15:0] (R91). -/
def countField (w : Word32) : Word16 := w.extractLsb' 0 16

/-- Why a command is ILLEGAL (R96), one name per line of the rule. -/
inductive DecodeError where
  | reservedOpcode
  | arg8NotZero
  | countNotZero
  | dinLength
  | dinNotEmpty
  | reservedRegister
  deriving DecidableEq, Repr

/-- The command of R95 with (a8, n, DIN), once the fields have passed R96's checks. -/
def commandOf (codec : Codec) (op : Opcode) (a8 : Byte) (n : Word16) (din : Bytes) : Except DecodeError Instr :=
  match op with
  | .init => .ok .init
  | .poll => .ok .poll
  | .send =>
    match codec with
    | .crc16 => .ok (.sendCrc a8 din)
    | .slip => .ok (.sendSlip din)
  | .readHook => .ok (.readHook din)
  | .regRead =>
    match Reg.ofNumber a8 with
    | some r => .ok (.regRead r)
    | none => .error .reservedRegister
  | .ringEnqueue => .ok (.ringEnqueue din)
  | .ringDequeue => .ok (.ringDequeue n)
  | .ringPeek => .ok (.ringPeek n)
  | .ringDiscard => .ok (.ringDiscard n)
  | .ringRemaining => .ok .ringRemaining
  | .ringDataSize => .ok .ringDataSize
  | .crc16Compute => .ok (.crc16Compute din)
  | .crcPack => .ok (.crcPack a8 din)
  | .crcUnpack => .ok (.crcUnpack din)
  | .slipPack => .ok (.slipPack din)
  | .slipUnpack => .ok (.slipUnpack din)
  | .slipChecksum => .ok (.slipChecksum din)

/-- R96, total on every word and every DIN; the checks in the rule's order.
Besides the word it reads only CODEC (R98). -/
def decode (codec : Codec) (w : Word32) (din : Bytes) : Except DecodeError Instr :=
  match Opcode.ofByte (opcodeField w) with
  | none => .error .reservedOpcode
  | some op =>
    if !op.usesArg8 codec && arg8Field w != 0 then .error .arg8NotZero
    else if !op.usesCount && countField w != 0 then .error .countNotZero
    else if op.isData && din.length != (countField w).toNat then .error .dinLength
    else if !op.isData && !din.isEmpty then .error .dinNotEmpty
    else commandOf codec op (arg8Field w) (countField w) din

/-- A word from its three fields (R91). -/
def packWord (op : Opcode) (a8 : Byte) (n : Word16) : Word32 := (op.byte ++ a8) ++ n

/-- N of a data command (R92). -/
def lengthField (din : Bytes) : Word16 := BitVec.ofNat 16 din.length

/-- The word and DIN of a command (R95, R106). -/
def encode : Instr → Word32 × Bytes
  | .init => (packWord .init 0 0, [])
  | .poll => (packWord .poll 0 0, [])
  | .sendCrc cmd payload => (packWord .send cmd (lengthField payload), payload)
  | .sendSlip body => (packWord .send 0 (lengthField body), body)
  | .readHook chunk => (packWord .readHook 0 (lengthField chunk), chunk)
  | .regRead r => (packWord .regRead r.number 0, [])
  | .ringEnqueue data => (packWord .ringEnqueue 0 (lengthField data), data)
  | .ringDequeue n => (packWord .ringDequeue 0 n, [])
  | .ringPeek n => (packWord .ringPeek 0 n, [])
  | .ringDiscard n => (packWord .ringDiscard 0 n, [])
  | .ringRemaining => (packWord .ringRemaining 0 0, [])
  | .ringDataSize => (packWord .ringDataSize 0 0, [])
  | .crc16Compute data => (packWord .crc16Compute 0 (lengthField data), data)
  | .crcPack cmd payload => (packWord .crcPack cmd (lengthField payload), payload)
  | .crcUnpack data => (packWord .crcUnpack 0 (lengthField data), data)
  | .slipPack body => (packWord .slipPack 0 (lengthField body), body)
  | .slipUnpack data => (packWord .slipUnpack 0 (lengthField data), data)
  | .slipChecksum data => (packWord .slipChecksum 0 (lengthField data), data)

/-- The DIN of zeros that goes with a word given alone: N zero bytes for a data command, else empty. -/
def zeroDin (w : Word32) : Bytes :=
  match Opcode.ofByte (opcodeField w) with
  | some op => if op.isData then List.replicate (countField w).toNat 0 else []
  | none => []

/-- The command whose word is w (its low nbits bits; the table gives every row 32) with a DIN of zeros, read by the decoder of
the block that `State.reset` is: CODEC = CRC16 (entries 2 and 11). -/
def decodeTableWord (nbits w : Nat) : Option Instr :=
  let word := BitVec.ofNat 32 (w % 2 ^ nbits)
  match decode Params.k1.codec word (zeroDin word) with
  | .ok i => some i
  | .error _ => none

end Sys2Proof
end

