-- ==== Sys2Proof/Machine/Fetch.lean ====
section
/-! DEFINITION. The next step of the schedule: which command runs next (10_state.md R22, 20_memory.md R72, 60_exceptions.md R279). -/

namespace Sys2Proof.Machine

/-- A command waits while a POLL of its own issuer is active (60_exceptions.md R279, 20_memory.md R72). -/
def waits (issuer : Nat) (s : State) : Bool :=
  match s.scan with
  | none => false
  | some sc => decide (sc.issuer = issuer)

/-- Take a command: run it when it decodes, else it is ILLEGAL (30_encoding.md R97). -/
def takeCommand (w : Word32) (din : Bytes) (s : State) : Fetched :=
  match decode s.cfg.codec w din with
  | .ok i => .run i s
  | .error _ => .done (reject .illegalCmd s)

/-- The next place of the schedule. With nothing scheduled the active POLL goes on; with none active the block is idle and keeps
its state (60_exceptions.md R284). A configuration that breaks 00_scope.md R8 has no meaning. -/
def fetch (s : State) : Fetched :=
  if !legal s.cfg then .stop .badParams
  else
    match s.inputs with
    | [] => .done (pollTurn s)
    | .pollTurn :: rest => .done (pollTurn { s with inputs := rest })
    | .raiseDerr code :: rest => .done (raiseDerr code { s with inputs := rest })
    | .command issuer w din :: rest =>
      if waits issuer s then .done (pollTurn s)
      else takeCommand w din { s with inputs := rest, caller := issuer }

end Sys2Proof.Machine
end

