-- ==== Sys2Proof/Machine/Step.lean ====
section
/-! DEFINITION. One atomic step of the block (00_scope.md R5, 20_memory.md R66). -/

namespace Sys2Proof.Machine

/-- One step: a command, a micro-step of the active POLL, the environment's RAISE_DERR, or nothing when the block is idle. -/
def step (s : State) : Host.Outcome State Fault Refusal :=
  match fetch s with
  | .run i t => exec i t
  | .done t => .next t
  | .stop r => .refused r

/-- s with the command of word w (its low nbits bits) and a DIN of zeros scheduled next (entry 11). -/
def State.withFetchWord (s : State) (nbits w : Nat) : State :=
  pushCommand (BitVec.ofNat 32 (w % 2 ^ nbits)) (zeroDin (BitVec.ofNat 32 (w % 2 ^ nbits))) s

end Sys2Proof.Machine
end

