-- ==== Sys2Proof/Safety.lean ====
section
/-! DEFINITION. The terms claims are stated in: the state invariant, when a lock can be taken, and the scan of R174 read as one loop. -/

namespace Sys2Proof.Machine

/-- Every listed slot lies below n. -/
def Memory.within (n : Nat) (m : Memory) : Prop := ∀ c ∈ m, c.1 < n

/-- A frame of the codec's kind, with its limits (00_scope.md R12). -/
def Frame.fits (codec : Codec) : Frame → Prop
  | .crc _ payload => codec = .crc16 ∧ payload.length ≤ 255
  | .slip body => codec = .slip ∧ 1 ≤ body.length

/-- The ring's invariant: indices below C (10_state.md R26), storage in its canonical form and inside C slots (R23, R60), and every
stored byte in a slot something has written (R40: "every read is bounded by data_size()"). -/
structure RingOk (s : State) : Prop where
  head_lt : s.head.toNat < s.cfg.C
  tail_lt : s.tail.toNat < s.cfg.C
  buf_wf : s.buf.wf
  buf_in : s.buf.within s.cfg.C
  written : ∀ k < dataSize s, (s.buf.find ((s.head.toNat + k) % s.cfg.C)).isSome = true

/-- The locals of an active POLL at each of its waiting points (10_state.md R33, 41_transport.md R172). -/
def Scan.Ok (p : Params) (running : Bool) (sc : Scan) : Prop :=
  match sc.phase with
  | .start => sc.window = [] ∧ sc.pos = 0 ∧ sc.base = 0 ∧ sc.count = 0
  | .resync =>
    running = true ∧ sc.window.length ≤ p.maxLen ∧ 0 < sc.pos ∧ sc.pos ≤ sc.window.length ∧ sc.base = 0 ∧ sc.count = 0
  | .frame =>
    running = true ∧ sc.window.length ≤ p.maxLen ∧ sc.base ≤ sc.pos ∧ sc.count ≤ sc.base ∧
      ∃ L F, unpack p (sc.window.drop sc.pos) = some (L, F) ∧ 1 ≤ L ∧ sc.pos + L ≤ sc.window.length

/-- The invariant of a state between steps. -/
structure State.Inv (s : State) : Prop where
  /-- The configuration is legal (00_scope.md R8). -/
  legal : legal s.cfg = true
  /-- The ring is in order (10_state.md R26). -/
  ring : RingOk s
  /-- The send buffer is in its canonical form. -/
  txbuf_wf : s.txbuf.wf
  /-- The send buffer has TX_MAX slots (41_transport.md R189). -/
  txbuf_in : s.txbuf.within s.cfg.txLen
  /-- No lock is held between two steps (20_memory.md R67). -/
  ring_free : s.ringLock = .free
  /-- No lock is held between two steps (20_memory.md R67). -/
  send_free : s.sendLock = .free
  /-- `running` is set only by a POLL, which needs `initialized` (10_state.md R28, R29). -/
  running_initialized : s.running = true → s.initialized = true
  /-- rx_frame holds a Frame of the codec's kind (10_state.md R36, 00_scope.md R12). -/
  rx_fits : s.rxFrame.fits s.cfg.codec
  /-- poll_active needs `initialized` (41_transport.md R170), and the locals are those of a waiting point. -/
  scan_ok : ∀ sc, s.scan = some sc → s.initialized = true ∧ sc.Ok s.cfg s.running

/-- The next acquisition of ring_lock succeeds (20_memory.md R68). -/
def ringReady (s : State) : Prop := lockFail s = false ∧ s.ringLock = .free

/-- The next acquisition of send_lock succeeds (20_memory.md R68). -/
def sendReady (s : State) : Prop := lockFail s = false ∧ s.sendLock = .free

/-- The next acquisition of a lock fails by its draw (20_memory.md R68). -/
def lockFails (s : State) : Prop := lockFail s = true

/-- The while loop of R174 as one loop over a window W, from scan index i with `base` bytes discarded: the frames decoded, in order,
and the final `base`. Every turn moves i on, so fuel len(W) + 1 is enough. -/
def scanLoop (p : Params) (W : Bytes) : Nat → Nat → Nat → List Frame × Nat
  | 0, _, base => ([], base)
  | fuel + 1, i, base =>
    if W.length ≤ i then ([], base)
    else if W.getD i 0 ≠ p.sync then scanLoop p W fuel (i + 1) base
    else if W.length - i < p.minLen then ([], base)
    else
      match unpack p (W.drop i) with
      | none => scanLoop p W fuel (i + 1) base
      | some (L, F) =>
        if L = 0 ∨ L > W.length - i then scanLoop p W fuel (i + 1) base
        else
          let r := scanLoop p W fuel (i + L) (i + L)
          (F :: r.1, r.2)

/-- What one POLL does with a window W (R174): the frames it decodes and how many bytes it discards from the ring in all. -/
def scanAll (p : Params) (W : Bytes) : List Frame × Nat :=
  scanLoop p W (W.length + 1) (resyncCount p W) (resyncCount p W)

/-- No sync position of W yields a match (R310). -/
def noMatch (p : Params) (W : Bytes) : Prop := ∀ i, i < W.length → W.getD i 0 = p.sync → unpack p (W.drop i) = none

/-- How many commands the next step takes from the schedule: one when a command stands first and does not wait (R90, R279). -/
def taken (s : State) : Nat :=
  match s.inputs with
  | .command issuer _ _ :: _ => if waits issuer s then 0 else 1
  | _ => 0

/-- How many commands are still to be answered between steps: the active POLL's (R90). -/
def unanswered (s : State) : Nat := if s.pollActive then 1 else 0

/-- Commands performed one after another, with no other step between them. -/
def execAll : List Instr → State → Result
  | [], s => .next s
  | i :: is, s =>
    match exec i s with
    | .next t => execAll is t
    | .fault r => .fault r
    | .refused r => .refused r

/-- The commands of 40_ring.md and READ_HOOK: those that take ring_lock in their one step (20_memory.md R67). -/
def takesRingLock : Instr → Prop
  | .readHook _ | .ringEnqueue _ | .ringDequeue _ | .ringPeek _ | .ringDiscard _ | .ringRemaining | .ringDataSize => True
  | _ => False

/-- A response to the caller, as the only change of the spec's state. -/
def answered (st : Status) (r : Word16) (d : Bytes) (s : State) : State :=
  { s with responses := s.responses ++ [{ issuer := s.caller, status := st, result := r, dout := d }] }

end Sys2Proof.Machine
end

