-- ==== Sys2Proof/Certificates/Slice0/Obligations.lean ====
section
/-! DEFINITION. The statements for the provers. -/

section Slice0Statements

open Sys2Proof Sys2Proof.Machine

/-! ### Encoding -/

/-- Words written out from the opcode map of 30_encoding.md R95, one for every opcode, and what they decode to. -/
def Obligations.SpecWordsDecode : Prop :=
  decode .crc16 0x01000000 [] = .ok .init ∧
  decode .crc16 0x02000000 [] = .ok .poll ∧
  decode .crc16 0x03050000 [] = .ok (.sendCrc 0x05 []) ∧
  decode .slip 0x03000002 [0xC0, 0x01] = .ok (.sendSlip [0xC0, 0x01]) ∧
  decode .crc16 0x04000003 [0x01, 0x02, 0x03] = .ok (.readHook [0x01, 0x02, 0x03]) ∧
  decode .crc16 0x0F120000 [] = .ok (.regRead .dataSize) ∧
  decode .crc16 0x10000001 [0xAA] = .ok (.ringEnqueue [0xAA]) ∧
  decode .crc16 0x1100FFFF [] = .ok (.ringDequeue 0xFFFF) ∧
  decode .slip 0x12000008 [] = .ok (.ringPeek 8) ∧
  decode .crc16 0x13000002 [] = .ok (.ringDiscard 2) ∧
  decode .crc16 0x14000000 [] = .ok .ringRemaining ∧
  decode .crc16 0x15000000 [] = .ok .ringDataSize ∧
  decode .crc16 0x20000001 [0x41] = .ok (.crc16Compute [0x41]) ∧
  decode .crc16 0x21FF0000 [] = .ok (.crcPack 0xFF []) ∧
  decode .slip 0x22000001 [0xAA] = .ok (.crcUnpack [0xAA]) ∧
  decode .slip 0x30000001 [0x24] = .ok (.slipPack [0x24]) ∧
  decode .crc16 0x31000001 [0xC0] = .ok (.slipUnpack [0xC0]) ∧
  decode .crc16 0x32000002 [0xFF, 0x01] = .ok (.slipChecksum [0xFF, 0x01]) ∧
  decode .slip 0x03050000 [] = .error .arg8NotZero ∧
  decode .crc16 0x05000000 [] = .error .reservedOpcode

/-- Decoding the encoding of a command gives the command back, for every command a block of either codec has. -/
def Obligations.DecodeEncodeRoundTrip : Prop :=
  ∀ (codec : Codec) (i : Instr), i.wellFormed codec = true → decode codec (encode i).1 (encode i).2 = .ok i

/-- A word and DIN that decode are the encoding of what they decode to: no bit is dropped, and each command has one encoding. -/
def Obligations.DecodedWordIsItsEncoding : Prop :=
  ∀ (codec : Codec) (w : Word32) (din : Bytes) (i : Instr),
    decode codec w din = .ok i → encode i = (w, din) ∧ i.wellFormed codec = true

/-- 30_encoding.md R96: exactly which commands are ILLEGAL, by the fields of the word and the length of DIN. -/
def Obligations.IllegalExactlyByRule : Prop :=
  ∀ (codec : Codec) (w : Word32) (din : Bytes),
    let op := w.toNat / 0x1000000
    let a8 := w.toNat / 0x10000 % 0x100
    let n := w.toNat % 0x10000
    let assigned := [0x01, 0x02, 0x03, 0x04, 0x0F, 0x10, 0x11, 0x12, 0x13, 0x14, 0x15, 0x20, 0x21, 0x22, 0x30, 0x31, 0x32]
    let usesArg8 := if codec = .crc16 then [0x21, 0x0F, 0x03] else [0x21, 0x0F]
    let noCount := [0x01, 0x02, 0x0F, 0x14, 0x15]
    let data := [0x03, 0x04, 0x10, 0x20, 0x21, 0x22, 0x30, 0x31, 0x32]
    (∃ e, decode codec w din = .error e) ↔
      op ∉ assigned ∨ (op ∉ usesArg8 ∧ a8 ≠ 0) ∨ (op ∈ noCount ∧ n ≠ 0) ∨ (op ∈ data ∧ din.length ≠ n) ∨
        (op ∉ data ∧ din ≠ []) ∨ (op = 0x0F ∧ 0x12 < a8)

/-! ### Steps and the schedule -/

/-- A command that stands first in the schedule, does not wait and decodes is run by `exec`, with its issuer as the caller.
The schedule and the issuer numbers are the model's own (entry 5). -/
def Obligations.StepRunsDecodedCommand : Prop :=
  ∀ (s : State) (issuer : Nat) (w : Word32) (din : Bytes) (rest : List Input) (i : Instr),
    legal s.cfg = true → s.inputs = .command issuer w din :: rest → waits issuer s = false →
    decode s.cfg.codec w din = .ok i → step s = exec i { s with inputs := rest, caller := issuer }

/-- 30_encoding.md R97: an ILLEGAL command changes no state, emits no event and responds (ILLEGAL_CMD, 0, []). The
schedule is the model's own (entry 5). -/
def Obligations.IllegalCommandResponds : Prop :=
  ∀ (s : State) (issuer : Nat) (w : Word32) (din : Bytes) (rest : List Input) (e : DecodeError),
    legal s.cfg = true → s.inputs = .command issuer w din :: rest → waits issuer s = false →
    decode s.cfg.codec w din = .error e →
    step s = .next { s with
      inputs := rest
      caller := issuer
      responses := s.responses ++ [{ issuer := issuer, status := .illegalCmd, result := 0, dout := [] }] }

/-- 60_exceptions.md R275: RAISE_DERR records the code unless one is pending. Its place in the schedule is the model's own form
(entry 5). -/
def Obligations.RaiseDerrRecordsFirst : Prop :=
  ∀ (s : State) (code : Byte) (rest : List Input), legal s.cfg = true → s.inputs = .raiseDerr code :: rest →
    step s = .next { s with
      inputs := rest
      derrPending := true
      derrCode := if s.derrPending then s.derrCode else code }

/-- 60_exceptions.md R284: with no command, no environment step and no POLL the block is idle and keeps all its state.
An empty schedule is the model's own (entry 5). -/
def Obligations.IdleKeepsState : Prop :=
  ∀ s : State, legal s.cfg = true → s.inputs = [] → s.pollActive = false → step s = .next s

/-- When the active POLL takes its next micro-step: at its turn in the schedule, when nothing else is scheduled, and while the next
command is of its own issuer, which waits (60_exceptions.md R279).
The schedule is the model's own (entry 5). -/
def Obligations.PollTakesItsTurn : Prop :=
  ∀ s : State, legal s.cfg = true →
    (s.inputs = [] → step s = .next (pollTurn s)) ∧
    (∀ rest, s.inputs = .pollTurn :: rest → step s = .next (pollTurn { s with inputs := rest })) ∧
    (∀ issuer w din rest, s.inputs = .command issuer w din :: rest → waits issuer s = true → step s = .next (pollTurn s))

/-- 00_scope.md R8: a configuration that breaks one of the constraints has no meaning, and only such a one. -/
def Obligations.IllegalConfigurationRefused : Prop :=
  ∀ s : State,
    let p := s.cfg
    (2 ≤ p.C ∧ p.C ≤ 65535 ∧ 1 ≤ p.minLen ∧ p.minLen ≤ p.maxLen ∧ p.maxLen ≤ p.C - 1 ∧ p.txLen ≥ p.minLen ∧
      p.crcRefin = false ∧ p.crcRefout = false ∧
      slipEnd ≠ slipEsc ∧ slipEnd ≠ p.slipEscEnd ∧ slipEnd ≠ p.slipEscEsc ∧ slipEsc ≠ p.slipEscEnd ∧
      slipEsc ≠ p.slipEscEsc ∧ p.slipEscEnd ≠ p.slipEscEsc ∧
      (p.codec = .slip → p.sync = slipEnd) ∧ (p.codec = .crc16 → p.minLen ≤ 5)) ↔
    step s ≠ .refused .badParams

/-- 60_exceptions.md R286: the block never stops; every step of a block with a legal configuration answers a next state. -/
def Obligations.StepAlwaysAnswers : Prop :=
  ∀ s : State, legal s.cfg = true → ∃ t, step s = .next t

/-! ### Reset -/

/-- 10_state.md R40: every state element the spec gives a value after reset has it, under every configuration.
(`buf`, `txbuf` and `rx_frame` are unspecified there: entries 3 and 4.) -/
def Obligations.ResetValues : Prop :=
  ∀ p : Params,
    let s := State.resetWith p
    s.cfg = p ∧ s.head = 0 ∧ s.tail = 0 ∧ s.version = 0 ∧ s.initialized = false ∧ s.running = false ∧
      s.derrPending = false ∧ s.pollActive = false ∧ s.derrCode = 0 ∧ s.ringLock = .free ∧ s.sendLock = .free ∧
      s.sink = [] ∧ s.events = [] ∧ stored s = []

/-- The invariant holds after reset, under every legal configuration.
It rests on the model's choice of `rx_frame` at reset (entry 4). -/
def Obligations.ResetSatisfiesInv : Prop :=
  ∀ p : Params, legal p = true → (State.resetWith p).Inv

/-! ### Whole-machine rules -/

/-- Every step keeps the invariant: indices below C, at most C - 1 bytes stored and each of them written, canonical storage, no lock
held, the scanner at one of its waiting points.
The POLL's waiting points and the free value of `rx_frame` are the model's (entries 10 and 4). -/
def Obligations.StepKeepsInv : Prop :=
  ∀ s t : State, s.Inv → step s = .next t → t.Inv

/-- 10_state.md R27: a step increases `version` by exactly 1 when it changes head or tail, and leaves it alone otherwise. -/
def Obligations.VersionCountsRingChanges : Prop :=
  ∀ s t : State, s.Inv → step s = .next t →
    t.version = if t.head = s.head ∧ t.tail = s.tail then s.version else s.version + 1

/-- 10_state.md R34, R35: `sink`, `events` and the responses only grow; `sink` grows only in a step that runs SEND.
The list of responses and the schedule are the model's own (entries 6 and 5). -/
def Obligations.StreamsOnlyGrow : Prop :=
  ∀ s t : State, step s = .next t →
    s.sink <+: t.sink ∧ s.events <+: t.events ∧ s.responses <+: t.responses ∧
    (t.sink ≠ s.sink → ∃ issuer w din rest, s.inputs = .command issuer w din :: rest ∧ opcodeField w = 0x03)

/-- 30_encoding.md R104: DECODED_TX and POLL_TICK are never emitted. -/
def Obligations.ReservedEventsNeverEmitted : Prop :=
  ∀ s t : State, step s = .next t → ∀ e ∈ t.events.drop s.events.length, e ≠ .decodedTx ∧ e ≠ .pollTick

/-- 70_reset_and_hazards.md R301: no step clears `initialized` or `running`; and no step changes the configuration
(00_scope.md R7). -/
def Obligations.OnlyResetClearsFlags : Prop :=
  ∀ s t : State, s.Inv → step s = .next t →
    (s.initialized = true → t.initialized = true) ∧ (s.running = true → t.running = true) ∧ t.cfg = s.cfg

/-- 10_state.md R28 to R31: what may change each status flag. `initialized`: a command INIT. `derr_pending`: RAISE_DERR sets it, a
command POLL clears it, and `derr_code` changes only when it is set. `running`: the active POLL's first-poll clear, or INIT.
The schedule is the model's own (entry 5). -/
def Obligations.FlagsChangeByTheirRules : Prop :=
  ∀ s t : State, s.Inv → step s = .next t →
    (t.initialized ≠ s.initialized → ∃ issuer rest, s.inputs = .command issuer 0x01000000 [] :: rest ∧ t.initialized = true) ∧
    (t.derrPending ≠ s.derrPending →
      (∃ code rest, s.inputs = .raiseDerr code :: rest ∧ t.derrPending = true ∧ t.derrCode = code) ∨
      (∃ issuer rest, s.inputs = .command issuer 0x02000000 [] :: rest ∧ t.derrPending = false)) ∧
    (t.derrCode ≠ s.derrCode → s.derrPending = false ∧ t.derrPending = true) ∧
    (t.running ≠ s.running →
      (∃ sc, s.scan = some sc ∧ sc.phase = .start ∧ t.running = true ∧ t.head = t.tail) ∨
      (∃ issuer rest, s.inputs = .command issuer 0x01000000 [] :: rest ∧ s.initialized = false))

/-- 30_encoding.md R90: every command gets exactly one response, a POLL after its last micro-step. Counted over one step: the
responses returned and the POLL still to be answered grow by the commands taken.
The responses and the schedule are the model's own (entries 6 and 5). -/
def Obligations.OneResponsePerCommand : Prop :=
  ∀ s t : State, step s = .next t →
    t.responses.length + unanswered t = s.responses.length + unanswered s + taken s

/-! ### Locks -/

/-- 40_ring.md R130, 41_transport.md R161: a ring command or READ_HOOK whose acquisition fails changes no state, emits no event and
responds (LOCK_BUSY, 0, []).
The draws and the responses are the model's own records (entries 7 and 6). -/
def Obligations.RingLockFailureChangesNothing : Prop :=
  ∀ (s : State) (i : Instr), takesRingLock i → lockFails s →
    exec i s = .next { s with
      draws := s.draws.tail
      responses := s.responses ++ [{ issuer := s.caller, status := .lockBusy, result := 0, dout := [] }] }

/-- 20_memory.md R68: LOCK_FAIL_MODE = NEVER never fails; under ANY the acquisition follows the free draw, either way.
The list of draws is the model's own (entry 7). -/
def Obligations.LockFailureIsTheDraw : Prop :=
  ∀ s : State,
    (s.cfg.lockFailMode = .never → lockFail s = false) ∧
    (∀ b, s.cfg.lockFailMode = .any → lockFail { s with draws := b :: s.draws } = b)

/-! ### The byte ring -/

/-- 40_ring.md R131, R134: RING_ENQUEUE stores the first min(len(D), remaining_size()) bytes at tail, and nothing else changes. -/
def Obligations.RingEnqueueAppends : Prop :=
  ∀ (s : State) (D : Bytes), s.Inv → ringReady s →
    let a := min D.length (s.cfg.C - 1 - dataSize s)
    ∃ t, exec (.ringEnqueue D) s = .next t ∧
      stored t = stored s ++ D.take a ∧
      (∀ j < a, t.buf.read ((s.tail.toNat + j) % s.cfg.C) = D.getD j 0) ∧
      (∀ k, (∀ j < a, k ≠ (s.tail.toNat + j) % s.cfg.C) → t.buf.read k = s.buf.read k) ∧
      t = { s with
        buf := t.buf
        tail := word16 ((s.tail.toNat + a) % s.cfg.C)
        version := if a > 0 then s.version + 1 else s.version
        events := s.events ++ if a < D.length then [.logTruncate (word16 D.length) (word16 a)] else []
        responses := s.responses ++
          [{ issuer := s.caller, status := if a < D.length then .truncated else .ok, result := word16 a, dout := [] }]
        draws := (drawn s).draws }

/-- 40_ring.md R135: RING_DEQUEUE returns and removes the first min(n, data_size()) stored bytes, and nothing else changes. -/
def Obligations.RingDequeueRemovesWhatItReturns : Prop :=
  ∀ (s : State) (n : Word16), s.Inv → ringReady s →
    let a := min n.toNat (dataSize s)
    ∃ t, exec (.ringDequeue n) s = .next t ∧
      stored t = (stored s).drop n.toNat ∧
      t = { s with
        head := word16 ((s.head.toNat + a) % s.cfg.C)
        version := if a > 0 then s.version + 1 else s.version
        responses := s.responses ++
          [{ issuer := s.caller, status := .ok, result := word16 a, dout := (stored s).take n.toNat }]
        draws := (drawn s).draws }

/-- 40_ring.md R136: RING_PEEK returns the first min(n, data_size()) stored bytes and changes no state. -/
def Obligations.RingPeekReturnsStored : Prop :=
  ∀ (s : State) (n : Word16), s.Inv → ringReady s →
    exec (.ringPeek n) s = .next { s with
      responses := s.responses ++
        [{ issuer := s.caller, status := .ok, result := word16 (min n.toNat (dataSize s)), dout := (stored s).take n.toNat }]
      draws := (drawn s).draws }

/-- 40_ring.md R137: RING_DISCARD removes the first min(n, data_size()) stored bytes, and nothing else changes. -/
def Obligations.RingDiscardRemoves : Prop :=
  ∀ (s : State) (n : Word16), s.Inv → ringReady s →
    let a := min n.toNat (dataSize s)
    ∃ t, exec (.ringDiscard n) s = .next t ∧
      stored t = (stored s).drop n.toNat ∧
      t = { s with
        head := word16 ((s.head.toNat + a) % s.cfg.C)
        version := if a > 0 then s.version + 1 else s.version
        responses := s.responses ++ [{ issuer := s.caller, status := .ok, result := word16 a, dout := [] }]
        draws := (drawn s).draws }

/-- 40_ring.md R138, R139: RING_REMAINING and RING_DATA_SIZE report (C - 1) - data_size() and data_size(), the number of stored
bytes, and change no state. -/
def Obligations.RingSizesReported : Prop :=
  ∀ s : State, s.Inv → ringReady s →
    exec .ringRemaining s = .next { s with
      responses := s.responses ++
        [{ issuer := s.caller, status := .ok, result := word16 (s.cfg.C - 1 - (stored s).length), dout := [] }]
      draws := (drawn s).draws } ∧
    exec .ringDataSize s = .next { s with
      responses := s.responses ++
        [{ issuer := s.caller, status := .ok, result := word16 (stored s).length, dout := [] }]
      draws := (drawn s).draws }

/-- 40_ring.md R140, R141: with no lock failures, byte strings enqueued whole into an empty ring, C - 1 bytes at most, come out of
one dequeue in the order they went in, whatever the initial head. -/
def Obligations.RingIsFifo : Prop :=
  ∀ (s : State) (Ds : List Bytes), s.Inv → s.cfg.lockFailMode = .never → dataSize s = 0 →
    Ds.flatten.length ≤ s.cfg.C - 1 →
    ∃ t, execAll (Ds.map .ringEnqueue ++ [.ringDequeue (word16 Ds.flatten.length)]) s = .next t ∧
      t.responses = s.responses ++
        Ds.map (fun D => { issuer := s.caller, status := .ok, result := word16 D.length, dout := [] }) ++
        [{ issuer := s.caller, status := .ok, result := word16 Ds.flatten.length, dout := Ds.flatten }] ∧
      t.events = s.events ∧ stored t = []

/-- 40_ring.md R140: data_size() + remaining_size() = C - 1, and once C - 1 bytes are stored a further enqueue accepts 0. -/
def Obligations.CapacityLaw : Prop :=
  ∀ s : State, s.Inv →
    dataSize s + remainingSize s = s.cfg.C - 1 ∧
    (∀ Ds : List Bytes, s.cfg.lockFailMode = .never →
      ∃ t, execAll (Ds.map .ringEnqueue) s = .next t ∧
        dataSize t = min (dataSize s + Ds.flatten.length) (s.cfg.C - 1))

/-! ### INIT, READ_HOOK, REG_READ -/

/-- 41_transport.md R160: the first INIT sets `initialized`, clears `running` and emits INIT_COMPLETE; a second is refused. -/
def Obligations.InitOnce : Prop :=
  ∀ s : State,
    (s.initialized = false → exec .init s = .next { s with
      initialized := true
      running := false
      events := s.events ++ [.initComplete]
      responses := s.responses ++ [{ issuer := s.caller, status := .ok, result := 0, dout := [] }] }) ∧
    (s.initialized = true → exec .init s = .next (answered .alreadyInit 0 [] s))

/-- 41_transport.md R161: READ_HOOK stores the whole chunk when it fits, and nothing else changes. -/
def Obligations.ReadHookStoresWholeChunk : Prop :=
  ∀ (s : State) (D : Bytes), s.Inv → ringReady s → D.length ≤ s.cfg.C - 1 - dataSize s →
    ∃ t, exec (.readHook D) s = .next t ∧
      stored t = stored s ++ D ∧
      (∀ j < D.length, t.buf.read ((s.tail.toNat + j) % s.cfg.C) = D.getD j 0) ∧
      (∀ k, (∀ j < D.length, k ≠ (s.tail.toNat + j) % s.cfg.C) → t.buf.read k = s.buf.read k) ∧
      t = { s with
        buf := t.buf
        tail := word16 ((s.tail.toNat + D.length) % s.cfg.C)
        version := if D.length > 0 then s.version + 1 else s.version
        responses := s.responses ++ [{ issuer := s.caller, status := .ok, result := word16 D.length, dout := [] }]
        draws := (drawn s).draws }

/-- 41_transport.md R161: a chunk larger than the remaining space is dropped whole; the bytes stored are unchanged. -/
def Obligations.ReadHookDropsWholeChunk : Prop :=
  ∀ (s : State) (D : Bytes), ringReady s → D.length > s.cfg.C - 1 - dataSize s →
    exec (.readHook D) s = .next { s with
      events := s.events ++ [.logBackpressure (word16 D.length) (word16 (s.cfg.C - 1 - dataSize s))]
      responses := s.responses ++ [{ issuer := s.caller, status := .backpressureDrop, result := 0, dout := [] }]
      draws := (drawn s).draws }

/-- 41_transport.md R195 with the register map of 10_state.md R37, R38: REG_READ of every register, its value, and no state
changed. -/
def Obligations.RegReadValues : Prop :=
  ∀ s : State, s.Inv →
    let reads := fun (r : Reg) (v : Word16) => exec (.regRead r) s = .next (answered .ok v [] s)
    reads .capacity s.cfg.capacity ∧ reads .frameMin s.cfg.frameMin ∧ reads .frameMax s.cfg.frameMax ∧
    (∃ v, reads .sync v ∧ v.toNat = s.cfg.sync.toNat) ∧
    reads .codec (if s.cfg.codec = .slip then 1 else 0) ∧
    reads .head s.head ∧ reads .tail s.tail ∧
    (∃ lo hi, reads .versionLo lo ∧ reads .versionHi hi ∧ s.version.toNat = hi.toNat * 65536 + lo.toNat) ∧
    (∃ v, reads .flags v ∧ v.getLsbD 0 = s.initialized ∧ v.getLsbD 1 = s.running ∧ v.getLsbD 2 = s.derrPending ∧
      v.getLsbD 3 = s.pollActive ∧ ∀ i ≥ 4, v.getLsbD i = false) ∧
    (∃ v, reads .derrCode v ∧ v.toNat = s.derrCode.toNat) ∧
    reads .crcPoly 0x1021 ∧ reads .crcInit s.cfg.crcInit ∧ reads .crcXorout s.cfg.crcXorout ∧ reads .crcReflect 0 ∧
    reads .slipCodes 0xDBC0 ∧
    (∃ v, reads .slipEscCodes v ∧ v.toNat = s.cfg.slipEscEsc.toNat * 256 + s.cfg.slipEscEnd.toNat) ∧
    reads .txMax s.cfg.txMax ∧
    (∃ v, reads .dataSize v ∧ v.toNat = (stored s).length)

/-! ### CRC-16 -/

/-- 42_crc16.md R212: the table-driven form and the bit by bit form agree for every byte string, CRC_INIT and CRC_XOROUT. -/
def Obligations.CrcTableAgreesWithBits : Prop :=
  ∀ (p : Params) (D : Bytes), crc16 p D = crc16Bits p D

/-- 42_crc16.md R218: CRC16_COMPUTE responds with crc16(D), CRC_INIT ^ CRC_XOROUT for the empty string, and changes no state. -/
def Obligations.Crc16ComputeResponds : Prop :=
  ∀ (s : State) (D : Bytes),
    exec (.crc16Compute D) s = .next (answered .ok (crc16 s.cfg D) [] s) ∧
    exec (.crc16Compute []) s = .next (answered .ok (s.cfg.crcInit ^^^ s.cfg.crcXorout) [] s)

/-- 42_crc16.md R219 with the layout of R213 and the byte order of R214: CRC_PACK's frame, low CRC byte first, the CRC over every
byte before it; a payload of more than 255 bytes is a PARAM_ERROR; no state changes. -/
def Obligations.CrcPackBuildsFrame : Prop :=
  ∀ (s : State) (cmd : Byte) (P : Bytes),
    (P.length ≤ 255 → ∃ len lo hi : Byte,
      len.toNat = P.length ∧
      lo.toNat + 256 * hi.toNat = (crc16 s.cfg ([s.cfg.sync, cmd, len] ++ P)).toNat ∧
      exec (.crcPack cmd P) s =
        .next (answered .ok (word16 (P.length + 5)) ([s.cfg.sync, cmd, len] ++ P ++ [lo, hi]) s)) ∧
    (P.length > 255 → exec (.crcPack cmd P) s = .next (answered .paramError 0 [] s))

/-- 42_crc16.md R216, R220: CRC_UNPACK finds a frame exactly when its input starts with one that R215 builds and R216's length check
holds; every other input gives (OK, 0, []); no state changes. -/
def Obligations.CrcUnpackFindsExactlyFrames : Prop :=
  ∀ (s : State) (X : Bytes),
    (∀ cmd P Y, P.length ≤ 255 → X = crcPack s.cfg cmd P ++ Y → s.cfg.minLen ≤ 5 + Y.length →
      exec (.crcUnpack X) s =
        .next (answered .ok (word16 (P.length + 5)) ([cmd, BitVec.ofNat 8 P.length] ++ P) s)) ∧
    ((∀ cmd P Y, P.length ≤ 255 → X = crcPack s.cfg cmd P ++ Y → ¬ s.cfg.minLen ≤ 5 + Y.length) →
      exec (.crcUnpack X) s = .next (answered .ok 0 [] s))

/-- 42_crc16.md R221: the round trip of the CRC codec, with any trailing string the length check allows. -/
def Obligations.CrcRoundTrip : Prop :=
  ∀ (p : Params) (cmd : Byte) (P Y : Bytes), P.length ≤ 255 → p.minLen ≤ 5 + Y.length →
    crcUnpack p (crcPack p cmd P ++ Y) = some (P.length + 5, cmd, P)

/-- 42_crc16.md R222, first half: a CRC frame with one payload byte replaced is rejected, whatever follows it. -/
def Obligations.CrcDetectsPayloadByteChange : Prop :=
  ∀ (p : Params) (cmd b : Byte) (P Y : Bytes) (k : Nat), P.length ≤ 255 → k < P.length → b ≠ P.getD k 0 →
    crcUnpack p ((crcPack p cmd P).set (3 + k) b ++ Y) = none

/-! ### SLIP -/

/-- 43_slip.md R242, R247: SLIP_CHECKSUM responds with the complement of the byte sum modulo 256 and changes no state. -/
def Obligations.SlipChecksumIsComplementOfSum : Prop :=
  ∀ (s : State) (D : Bytes), ∃ v : Word16,
    v.toNat = 255 - (D.map BitVec.toNat).sum % 256 ∧ exec (.slipChecksum D) s = .next (answered .ok v [] s)

/-- 43_slip.md R248 with the layout of R243 to R245: SLIP_PACK's frame; RESULT is its length where 16 bits hold it (entry 9); an empty
body is a PARAM_ERROR; no state changes. -/
def Obligations.SlipPackBuildsFrame : Prop :=
  ∀ (s : State) (D : Bytes),
    (D ≠ [] → ∃ (r : Word16) (B : Bytes),
      B = [0xC0] ++ (D ++ [slipChecksum D]).flatMap (fun b =>
        if b = 0xC0 then [0xDB, s.cfg.slipEscEnd] else if b = 0xDB then [0xDB, s.cfg.slipEscEsc] else [b]) ++ [0xC0] ∧
      (B.length < 65536 → r.toNat = B.length) ∧
      B.length ≤ 2 * D.length + 4 ∧
      exec (.slipPack D) s = .next (answered .ok r B s)) ∧
    (D = [] → exec (.slipPack D) s = .next (answered .paramError 0 [] s))

/-- 43_slip.md R246, R249: SLIP_UNPACK finds a frame exactly when its input starts with one that R245 builds; every other input gives
(OK, 0, []); no state changes. -/
def Obligations.SlipUnpackFindsExactlyFrames : Prop :=
  ∀ (s : State) (X : Bytes), legal s.cfg = true →
    (∀ D Y, D ≠ [] → X = slipPack s.cfg D ++ Y →
      exec (.slipUnpack X) s = .next (answered .ok (word16 (slipPack s.cfg D).length) D s)) ∧
    ((∀ D Y, D ≠ [] → X ≠ slipPack s.cfg D ++ Y) → exec (.slipUnpack X) s = .next (answered .ok 0 [] s))

/-- 43_slip.md R250: the round trip of the SLIP codec, with any trailing string; every byte value survives. -/
def Obligations.SlipRoundTrip : Prop :=
  ∀ (p : Params) (D Y : Bytes), legal p = true → 1 ≤ D.length →
    slipUnpack p (slipPack p D ++ Y) = some ((slipPack p D).length, D)

/-- 20_memory.md R69: REG_READ and the CRC and SLIP commands change no state; the answers of the CRC and SLIP commands depend on the
configuration and the operands alone. -/
def Obligations.PureCommandsChangeNothing : Prop :=
  (∀ (s : State) (r : Reg), ∃ st v d, exec (.regRead r) s = .next (answered st v d s)) ∧
  ∀ (p : Params) (i : Instr),
    (∃ x, i = .crc16Compute x ∨ i = .crcUnpack x ∨ i = .slipPack x ∨ i = .slipUnpack x ∨ i = .slipChecksum x ∨
      ∃ c, i = .crcPack c x) →
    ∃ st v d, ∀ s : State, s.cfg = p → exec i s = .next (answered st v d s)

/-! ### SEND -/

/-- 41_transport.md R188 to R191, CODEC = CRC16: SEND packs, holds the bytes in `txbuf`, emits RAW_TX, and writes them to the sink only
when they are at least FRAME_MIN bytes; nothing else changes. -/
def Obligations.SendCrcPath : Prop :=
  ∀ (s : State) (cmd : Byte) (P : Bytes), s.cfg.codec = .crc16 → s.initialized = true → sendReady s →
    let B := if P.length > 255 ∨ P.length + 5 > s.cfg.txLen then [] else crcPack s.cfg cmd P
    ∃ t, exec (.sendCrc cmd P) s = .next t ∧
      (∀ k < B.length, t.txbuf.find k = some (B.getD k 0)) ∧
      (∀ k ≥ B.length, t.txbuf.find k = s.txbuf.find k) ∧
      t = { s with
        txbuf := t.txbuf
        sink := s.sink ++ if B.length ≥ s.cfg.minLen then B else []
        events := s.events ++ .rawTx B :: if B.length ≥ s.cfg.minLen then [] else [.logSendGuard (word16 B.length)]
        responses := s.responses ++
          [{ issuer := s.caller, status := if B.length ≥ s.cfg.minLen then .ok else .sendGuardDrop,
             result := word16 B.length, dout := [] }]
        draws := (drawn s).draws }

/-- 41_transport.md R188 to R191, CODEC = SLIP: the same path for a SLIP body. -/
def Obligations.SendSlipPath : Prop :=
  ∀ (s : State) (D : Bytes), s.cfg.codec = .slip → s.initialized = true → sendReady s →
    let B := if (slipPack s.cfg D).length > s.cfg.txLen then [] else slipPack s.cfg D
    ∃ t, exec (.sendSlip D) s = .next t ∧
      (∀ k < B.length, t.txbuf.find k = some (B.getD k 0)) ∧
      (∀ k ≥ B.length, t.txbuf.find k = s.txbuf.find k) ∧
      t = { s with
        txbuf := t.txbuf
        sink := s.sink ++ if B.length ≥ s.cfg.minLen then B else []
        events := s.events ++ .rawTx B :: if B.length ≥ s.cfg.minLen then [] else [.logSendGuard (word16 B.length)]
        responses := s.responses ++
          [{ issuer := s.caller, status := if B.length ≥ s.cfg.minLen then .ok else .sendGuardDrop,
             result := word16 B.length, dout := [] }]
        draws := (drawn s).draws }

/-- SEND's statuses before the send path, in the order of 41_transport.md R188 (60_exceptions.md R273): NOT_INIT, then LOCK_BUSY,
neither with any other effect. The form of the other codec is refused, the model's choice (entry 8). -/
def Obligations.SendTurnedAway : Prop :=
  ∀ (s : State) (codec : Codec) (i : Instr),
    (codec = .crc16 ∧ (∃ cmd P, i = .sendCrc cmd P)) ∨ (codec = .slip ∧ (∃ D, i = .sendSlip D)) →
    (s.cfg.codec = codec → s.initialized = false → exec i s = .next (answered .notInit 0 [] s)) ∧
    (s.cfg.codec = codec → s.initialized = true → lockFails s →
      exec i s = .next { answered .lockBusy 0 [] s with draws := s.draws.tail }) ∧
    (s.cfg.codec ≠ codec → exec i s = .refused .otherCodec)

/-- 20_memory.md R79: the send side does not see the receive side. SEND in two states that differ in the ring, the scanner, `running`,
the deferred error and `rx_frame` does the same, and leaves each of them as it was. -/
def Obligations.SendIgnoresReceiveSide : Prop :=
  ∀ (s t : State) (i : Instr) (b : Memory) (h l : Word16) (v : Word32) (r d : Bool) (c : Byte) (k : Lock) (sc : Option Scan)
    (f : Frame), ((∃ cmd P, i = .sendCrc cmd P) ∨ (∃ D, i = .sendSlip D)) → exec i s = .next t →
    exec i { s with buf := b, head := h, tail := l, version := v, running := r, derrPending := d, derrCode := c, ringLock := k,
                    scan := sc, rxFrame := f } =
      .next { t with buf := b, head := h, tail := l, version := v, running := r, derrPending := d, derrCode := c, ringLock := k,
                     scan := sc, rxFrame := f }

/-! ### POLL -/

/-- 41_transport.md R170: POLL's entry checks in their order, and the POLL that passes them. -/
def Obligations.PollEntryChecks : Prop :=
  ∀ s : State,
    (s.initialized = false → exec .poll s = .next (answered .notInit 0 [] s)) ∧
    (s.initialized = true → s.pollActive = true → exec .poll s = .next (answered .lockBusy 0 [] s)) ∧
    (s.initialized = true → s.pollActive = false → s.derrPending = true →
      exec .poll s = .next { s with
        derrPending := false
        events := s.events ++ [.logDeferredError s.derrCode]
        responses := s.responses ++
          [{ issuer := s.caller, status := .deferredError, result := s.derrCode.setWidth 16, dout := [] }] }) ∧
    (s.initialized = true → s.pollActive = false → s.derrPending = false →
      exec .poll s = .next { s with
        scan := some { issuer := s.caller, phase := .start, window := [], pos := 0, base := 0, count := 0 } })

/-- 41_transport.md R171: the first POLL's second micro-step discards every stored byte and sets `running`; nothing else changes, and
the POLL goes on. -/
def Obligations.FirstPollClears : Prop :=
  ∀ (s : State) (sc : Scan), s.Inv → s.scan = some sc → sc.phase = .start → s.running = false → ringReady s →
    pollTurn s = { s with
      head := s.tail
      version := if dataSize s > 0 then s.version + 1 else s.version
      running := true
      draws := (drawn s).draws }

/-- 41_transport.md R175 to R177: the window is the first min(FRAME_MAX, data_size()) stored bytes, is not consumed, and is published
when it is not empty; an empty window ends the POLL with (OK, 0); a window that does not begin with SYNC has the bytes before its
first SYNC, or all of them, as the next discard.
That a POLL with no further frame ends within this micro-step is the model's reading (entry 10). -/
def Obligations.PollPeeksWindow : Prop :=
  ∀ (s : State) (sc : Scan), s.Inv → s.scan = some sc → sc.phase = .start → s.running = true → ringReady s →
    let W := (stored s).take s.cfg.maxLen
    (W = [] → pollTurn s = { s with
      scan := none
      responses := s.responses ++ [{ issuer := sc.issuer, status := .ok, result := 0, dout := [] }]
      draws := (drawn s).draws }) ∧
    (W ≠ [] → (pollTurn s).events = s.events ++ [.rawRx W] ∧ (pollTurn s).buf = s.buf ∧ (pollTurn s).head = s.head ∧
      (pollTurn s).tail = s.tail ∧ (pollTurn s).version = s.version) ∧
    (W ≠ [] → W.getD 0 0 ≠ s.cfg.sync → ∃ k, 0 < k ∧ k ≤ W.length ∧ (∀ j < k, W.getD j 0 ≠ s.cfg.sync) ∧
      (k < W.length → W.getD k 0 = s.cfg.sync) ∧
      pollTurn s = { s with
        scan := some { issuer := sc.issuer, phase := .resync, window := W, pos := k, base := 0, count := 0 }
        events := s.events ++ [.rawRx W]
        draws := (drawn s).draws })

/-- 41_transport.md R177: the resynchronization discard removes the bytes before the first SYNC and emits nothing; the POLL then
ends with (OK, 0) or has its first frame next.
That a POLL with no further frame ends within this micro-step is the model's reading (entry 10). -/
def Obligations.PollResynchronizes : Prop :=
  ∀ (s : State) (sc : Scan), s.Inv → s.scan = some sc → sc.phase = .resync → ringReady s →
    let t := pollTurn s
    stored t = (stored s).drop sc.pos ∧ t.buf = s.buf ∧ t.tail = s.tail ∧ t.events = s.events ∧ t.sink = s.sink ∧
      ((t.scan = none ∧
          t.responses = s.responses ++ [{ issuer := sc.issuer, status := .ok, result := 0, dout := [] }]) ∨
        (t.responses = s.responses ∧
          ∃ sc', t.scan = some sc' ∧ sc'.phase = .frame ∧ sc'.window = sc.window ∧ sc'.base = sc.pos ∧ sc'.count = 0))

/-- 41_transport.md R181: a match discards exactly the window bytes base .. i+L-1, publishes the frame and goes on at i + L; the POLL
then ends with (OK, count) or has its next frame next. `rx_frame` holds the frame unless a later failed attempt left it
unspecified (10_state.md R36, entry 4).
That a POLL with no further frame ends within this micro-step is the model's reading (entry 10). -/
def Obligations.PollDecodesFrame : Prop :=
  ∀ (s : State) (sc : Scan) (L : Nat) (F : Frame), s.Inv → s.scan = some sc → sc.phase = .frame → ringReady s →
    unpack s.cfg (sc.window.drop sc.pos) = some (L, F) →
    let t := pollTurn s
    stored t = (stored s).drop (sc.pos + L - sc.base) ∧ t.buf = s.buf ∧ t.tail = s.tail ∧ t.sink = s.sink ∧
      t.events = s.events ++ [.decodedRx F] ∧
      ((t.rxFrame = F ∧ t.freeCount = s.freeCount) ∨ t.freeCount = s.freeCount + 1) ∧
      ((t.scan = none ∧ t.responses = s.responses ++
          [{ issuer := sc.issuer, status := .ok, result := word16 (sc.count + 1), dout := [] }]) ∨
        (t.responses = s.responses ∧
          ∃ sc', t.scan = some sc' ∧ sc'.phase = .frame ∧ sc'.window = sc.window ∧ sc'.base = sc.pos + L ∧
            sc'.count = sc.count + 1 ∧ sc.pos + L ≤ sc'.pos))

/-- 60_exceptions.md R272, R271: a POLL whose lock acquisition fails ends with (LOCK_BUSY, frames already decoded), keeps every
micro-step already done, clears poll_active and changes nothing else. -/
def Obligations.PollLockFailureEndsIt : Prop :=
  ∀ (s : State) (sc : Scan), s.Inv → s.scan = some sc → lockFails s →
    pollTurn s = { s with
      scan := none
      draws := s.draws.tail
      responses := s.responses ++ [{ issuer := sc.issuer, status := .lockBusy, result := word16 sc.count, dout := [] }] }

/-- 41_transport.md R174: with no other agent's step between and no lock failure, the micro-steps of a POLL do what the pseudocode's
loop does with the window: the same frames published in order, the same bytes removed, the same response, within FRAME_MAX + 2
steps.
An empty schedule is the model's own (entry 5). -/
def Obligations.PollMatchesPseudocode : Prop :=
  ∀ (s : State) (sc : Scan), s.Inv → s.inputs = [] → s.cfg.lockFailMode = .never → s.scan = some sc → sc.phase = .start →
    s.running = true →
    let W := (stored s).take s.cfg.maxLen
    let r := scanAll s.cfg W
    ∃ k t, k ≤ s.cfg.maxLen + 2 ∧ Host.Core.run Sys2Proof.core k s = .next t ∧
      t.scan = none ∧
      t.events = s.events ++ (if W = [] then [] else [.rawRx W]) ++ r.1.map .decodedRx ∧
      t.responses = s.responses ++
        [{ issuer := sc.issuer, status := .ok, result := word16 r.1.length, dout := [] }] ∧
      stored t = (stored s).drop r.2 ∧ t.sink = s.sink

/-- Every POLL ends: left to itself, from any waiting point and whatever its lock acquisitions do, it has returned its one response
after at most FRAME_MAX + 3 micro-steps.
An empty schedule is the model's own (entry 5). -/
def Obligations.PollAlwaysEnds : Prop :=
  ∀ (s : State) (sc : Scan), s.Inv → s.inputs = [] → s.scan = some sc →
    ∃ k t r, k ≤ s.cfg.maxLen + 3 ∧ Host.Core.run Sys2Proof.core k s = .next t ∧ t.scan = none ∧
      t.responses = s.responses ++ [r] ∧ r.issuer = sc.issuer ∧ (r.status = .ok ∨ r.status = .lockBusy)

/-- 70_reset_and_hazards.md R310: when the window is full, begins with SYNC and no sync position in it yields a match, the POLL
discards nothing and ends with (OK, 0), so that the next POLL finds the same window.
That a POLL with no further frame ends within this micro-step is the model's reading (entry 10). -/
def Obligations.WindowStall : Prop :=
  ∀ (s : State) (sc : Scan), s.Inv → s.scan = some sc → sc.phase = .start → s.running = true → ringReady s →
    let W := (stored s).take s.cfg.maxLen
    W.length = s.cfg.maxLen → W.getD 0 0 = s.cfg.sync → noMatch s.cfg W →
    let t := pollTurn s
    t = { s with
      scan := none
      events := s.events ++ [.rawRx W]
      responses := s.responses ++ [{ issuer := sc.issuer, status := .ok, result := 0, dout := [] }]
      rxFrame := t.rxFrame
      freeCount := t.freeCount
      draws := (drawn s).draws } ∧ (stored t).take t.cfg.maxLen = W

/-- 41_transport.md R185, R186: garbage without SYNC before any number of valid frames back to back in one window: all the frames are
decoded, in wire order, and garbage and frames are removed. (Frames of at least FRAME_MIN bytes: R315.) -/
def Obligations.GarbageThenFramesDecoded : Prop :=
  ∀ (p : Params) (G : Bytes) (Fs : List Frame), legal p = true → (∀ b ∈ G, b ≠ p.sync) →
    (∀ F ∈ Fs, F.fits p.codec ∧ p.minLen ≤ (pack p F).length) →
    scanAll p (G ++ (Fs.map (pack p)).flatten) = (Fs, (G ++ (Fs.map (pack p)).flatten).length)

/-- 41_transport.md R184: a window that holds the first part of a valid frame only is not decoded and nothing of it is discarded.
(Stated for a first part without a second SYNC byte, which could begin a frame of its own.) -/
def Obligations.SplitFrameWaits : Prop :=
  ∀ (p : Params) (F : Frame) (k : Nat), legal p = true → F.fits p.codec → 0 < k → k < (pack p F).length →
    (∀ b ∈ ((pack p F).take k).drop 1, b ≠ p.sync) →
    scanAll p ((pack p F).take k) = ([], 0)

/-- 20_memory.md R80: RING_ENQUEUE and READ_HOOK during a POLL leave the stored bytes, which the POLL has peeked, and the POLL's locals
unchanged. -/
def Obligations.EnqueueDuringPollIsSafe : Prop :=
  ∀ (s t : State) (i : Instr), s.Inv → s.pollActive = true → (∃ D, i = .ringEnqueue D ∨ i = .readHook D) →
    exec i s = .next t → stored s <+: stored t ∧ t.scan = s.scan ∧ t.head = s.head

end Slice0Statements
end

