-- ==== Sys2Proof/Laws/Codec.lean ====
section
/-! SUPPORT. What the two codecs answer: the shape of a frame they find, and of the bytes they build. -/

namespace Sys2Proof.Machine

/-- What crc_unpack has checked when it finds a frame (R216). -/
theorem crcUnpack_some {p : Params} {X P : Bytes} {L : Nat} {cmd : Byte} (h : crcUnpack p X = some (L, cmd, P)) :
    X.getD 0 0 = p.sync ∧ L = (X.getD 2 0).toNat + 5 ∧ cmd = X.getD 1 0 ∧ P = (X.drop 3).take (X.getD 2 0).toNat ∧
      L ≤ X.length ∧ p.minLen ≤ X.length ∧ (X.getD 2 0).toNat ≤ X.length - p.minLen ∧
      X.getD (L - 2) 0 = crcLo (crc16 p (X.take (L - 2))) ∧ X.getD (L - 1) 0 = crcHi (crc16 p (X.take (L - 2))) := by
  unfold crcUnpack at h
  dsimp only at h
  split at h
  · cases h
  · rename_i h1
    split at h
    · cases h
    · rename_i h2
      split at h
      · cases h
      · rename_i h3
        split at h
        · cases h
        · rename_i h4
          simp only [not_or, Decidable.not_not, Nat.not_lt, gt_iff_lt, ne_eq] at h1 h2 h3 h4
          cases h
          refine ⟨h1.2, rfl, rfl, rfl, by omega, by omega, h2.2, ?_, ?_⟩
          · simpa [show ∀ n, n + 5 - 2 = n + 3 by omega] using h4.1
          · simpa [show ∀ n, n + 5 - 1 = n + 4 by omega, show ∀ n, n + 5 - 2 = n + 3 by omega] using h4.2

/-- A SLIP frame found has at least one body byte (R246). -/
theorem slipUnpack_some {p : Params} {X D : Bytes} {L : Nat} (h : slipUnpack p X = some (L, D)) :
    1 ≤ D.length ∧ 1 ≤ L ∧ X.getD 0 0 = slipEnd := by
  unfold slipUnpack at h
  split at h
  · cases h
  · rename_i h1
    split at h
    · cases h
    · split at h
      · cases h
      · rename_i U _
        split at h
        · cases h
        · rename_i h2
          dsimp only at h
          split at h
          · cases h
          · cases h
            simp only [not_or, Decidable.not_not, ne_eq] at h1
            exact ⟨by simp; omega, by omega, h1.2⟩

/-- A frame found is one of the codec's kind, within its limits (R12). -/
theorem unpack_fits {p : Params} {X : Bytes} {L : Nat} {F : Frame} (h : unpack p X = some (L, F)) : F.fits p.codec := by
  unfold unpack at h
  split at h
  · rename_i hc
    obtain ⟨⟨L', cmd, P⟩, h1, h2⟩ := Option.map_eq_some_iff.1 h
    cases h2
    have hn := (X.getD 2 0).isLt
    obtain ⟨-, -, -, hP, -⟩ := crcUnpack_some h1
    refine ⟨hc, ?_⟩
    rw [hP, List.length_take]
    omega
  · rename_i hc
    obtain ⟨⟨L', D⟩, h1, h2⟩ := Option.map_eq_some_iff.1 h
    cases h2
    exact ⟨hc, (slipUnpack_some h1).1⟩

@[simp] theorem crcHeader_length (p : Params) (cmd : Byte) (P : Bytes) : (crcHeader p cmd P).length = P.length + 3 := by
  simp [crcHeader]

/-- A CRC frame is 5 bytes longer than its payload (R213). -/
theorem crcPack_length {p : Params} {cmd : Byte} {P : Bytes} (h : P.length ≤ 255) : (crcPack p cmd P).length = P.length + 5 := by
  simp [crcPack, Nat.not_lt.2 h]

/-- A payload that does not fit the length byte packs to nothing (R215). -/
theorem crcPack_long {p : Params} {cmd : Byte} {P : Bytes} (h : P.length > 255) : crcPack p cmd P = [] := by
  simp [crcPack, h]

end Sys2Proof.Machine
end

