-- ==== Sys2Proof/Laws/Decode.lean ====
section
/-! SUPPORT. The three fields of a command word, the opcode map and the register numbers, each with its inverse. -/

namespace Sys2Proof

theorem packWord_toNat (op : Opcode) (a8 : Byte) (n : Word16) :
    (packWord op a8 n).toNat = (op.byte.toNat * 256 + a8.toNat) * 65536 + n.toNat := by
  have h1 := a8.isLt
  have h2 := n.isLt
  simp only [packWord, BitVec.toNat_append]
  rw [← Nat.shiftLeft_add_eq_or_of_lt h1, ← Nat.shiftLeft_add_eq_or_of_lt h2, Nat.shiftLeft_eq, Nat.shiftLeft_eq]

theorem opcodeField_toNat (w : Word32) : (opcodeField w).toNat = w.toNat / 16777216 := by
  have := w.isLt
  simp only [opcodeField, BitVec.extractLsb'_toNat, Nat.shiftRight_eq_div_pow]
  omega

theorem arg8Field_toNat (w : Word32) : (arg8Field w).toNat = w.toNat / 65536 % 256 := by
  simp [arg8Field, BitVec.extractLsb'_toNat, Nat.shiftRight_eq_div_pow]

theorem countField_toNat (w : Word32) : (countField w).toNat = w.toNat % 65536 := by
  simp [countField, BitVec.extractLsb'_toNat]

@[simp] theorem opcodeField_packWord (op : Opcode) (a8 : Byte) (n : Word16) : opcodeField (packWord op a8 n) = op.byte := by
  apply BitVec.eq_of_toNat_eq
  have h1 := a8.isLt
  have h2 := n.isLt
  rw [opcodeField_toNat, packWord_toNat]
  omega

@[simp] theorem arg8Field_packWord (op : Opcode) (a8 : Byte) (n : Word16) : arg8Field (packWord op a8 n) = a8 := by
  apply BitVec.eq_of_toNat_eq
  have h1 := a8.isLt
  have h2 := n.isLt
  rw [arg8Field_toNat, packWord_toNat]
  omega

@[simp] theorem countField_packWord (op : Opcode) (a8 : Byte) (n : Word16) : countField (packWord op a8 n) = n := by
  apply BitVec.eq_of_toNat_eq
  have h2 := n.isLt
  rw [countField_toNat, packWord_toNat]
  omega

/-- A word is its three fields: no bit is left over. -/
theorem packWord_fields {w : Word32} {op : Opcode} (h : op.byte = opcodeField w) :
    packWord op (arg8Field w) (countField w) = w := by
  apply BitVec.eq_of_toNat_eq
  have := w.isLt
  rw [packWord_toNat, h, opcodeField_toNat, arg8Field_toNat, countField_toNat]
  omega

@[simp] theorem Opcode.ofByte_byte (op : Opcode) : Opcode.ofByte op.byte = some op := by cases op <;> rfl

theorem Opcode.byte_of_ofByte {b : Byte} {op : Opcode} (h : Opcode.ofByte b = some op) : op.byte = b := by
  revert b op; decide

@[simp] theorem Reg.ofNumber_number (r : Reg) : Reg.ofNumber r.number = some r := by cases r <;> rfl

theorem Reg.number_of_ofNumber {b : Byte} {r : Reg} (h : Reg.ofNumber b = some r) : r.number = b := by
  revert b r; decide

theorem lengthField_toNat {din : Bytes} (h : din.length < 65536) : (lengthField din).toNat = din.length := by
  simp [lengthField, Nat.mod_eq_of_lt h]

end Sys2Proof
end

