-- ==== Sys2Proof/Laws/State.lean ====
section
/-! SUPPORT. One lemma per field and update, so that no proof unfolds a record update. -/

namespace Sys2Proof.Machine

/-! ### emit -/

@[simp] theorem emit_cfg (e : Event) (s : State) : (emit e s).cfg = s.cfg := rfl
@[simp] theorem emit_buf (e : Event) (s : State) : (emit e s).buf = s.buf := rfl
@[simp] theorem emit_head (e : Event) (s : State) : (emit e s).head = s.head := rfl
@[simp] theorem emit_tail (e : Event) (s : State) : (emit e s).tail = s.tail := rfl
@[simp] theorem emit_version (e : Event) (s : State) : (emit e s).version = s.version := rfl
@[simp] theorem emit_initialized (e : Event) (s : State) : (emit e s).initialized = s.initialized := rfl
@[simp] theorem emit_running (e : Event) (s : State) : (emit e s).running = s.running := rfl
@[simp] theorem emit_derrPending (e : Event) (s : State) : (emit e s).derrPending = s.derrPending := rfl
@[simp] theorem emit_derrCode (e : Event) (s : State) : (emit e s).derrCode = s.derrCode := rfl
@[simp] theorem emit_ringLock (e : Event) (s : State) : (emit e s).ringLock = s.ringLock := rfl
@[simp] theorem emit_sendLock (e : Event) (s : State) : (emit e s).sendLock = s.sendLock := rfl
@[simp] theorem emit_scan (e : Event) (s : State) : (emit e s).scan = s.scan := rfl
@[simp] theorem emit_rxFrame (e : Event) (s : State) : (emit e s).rxFrame = s.rxFrame := rfl
@[simp] theorem emit_txbuf (e : Event) (s : State) : (emit e s).txbuf = s.txbuf := rfl
@[simp] theorem emit_sink (e : Event) (s : State) : (emit e s).sink = s.sink := rfl
@[simp] theorem emit_events (e : Event) (s : State) :
    (emit e s).events = s.events ++ [e] := rfl
@[simp] theorem emit_responses (e : Event) (s : State) : (emit e s).responses = s.responses := rfl
@[simp] theorem emit_inputs (e : Event) (s : State) : (emit e s).inputs = s.inputs := rfl
@[simp] theorem emit_draws (e : Event) (s : State) : (emit e s).draws = s.draws := rfl
@[simp] theorem emit_caller (e : Event) (s : State) : (emit e s).caller = s.caller := rfl
@[simp] theorem emit_freeCount (e : Event) (s : State) : (emit e s).freeCount = s.freeCount := rfl

/-! ### sinkAppend -/

@[simp] theorem sinkAppend_cfg (b : Bytes) (s : State) : (sinkAppend b s).cfg = s.cfg := rfl
@[simp] theorem sinkAppend_buf (b : Bytes) (s : State) : (sinkAppend b s).buf = s.buf := rfl
@[simp] theorem sinkAppend_head (b : Bytes) (s : State) : (sinkAppend b s).head = s.head := rfl
@[simp] theorem sinkAppend_tail (b : Bytes) (s : State) : (sinkAppend b s).tail = s.tail := rfl
@[simp] theorem sinkAppend_version (b : Bytes) (s : State) : (sinkAppend b s).version = s.version := rfl
@[simp] theorem sinkAppend_initialized (b : Bytes) (s : State) : (sinkAppend b s).initialized = s.initialized := rfl
@[simp] theorem sinkAppend_running (b : Bytes) (s : State) : (sinkAppend b s).running = s.running := rfl
@[simp] theorem sinkAppend_derrPending (b : Bytes) (s : State) : (sinkAppend b s).derrPending = s.derrPending := rfl
@[simp] theorem sinkAppend_derrCode (b : Bytes) (s : State) : (sinkAppend b s).derrCode = s.derrCode := rfl
@[simp] theorem sinkAppend_ringLock (b : Bytes) (s : State) : (sinkAppend b s).ringLock = s.ringLock := rfl
@[simp] theorem sinkAppend_sendLock (b : Bytes) (s : State) : (sinkAppend b s).sendLock = s.sendLock := rfl
@[simp] theorem sinkAppend_scan (b : Bytes) (s : State) : (sinkAppend b s).scan = s.scan := rfl
@[simp] theorem sinkAppend_rxFrame (b : Bytes) (s : State) : (sinkAppend b s).rxFrame = s.rxFrame := rfl
@[simp] theorem sinkAppend_txbuf (b : Bytes) (s : State) : (sinkAppend b s).txbuf = s.txbuf := rfl
@[simp] theorem sinkAppend_sink (b : Bytes) (s : State) :
    (sinkAppend b s).sink = s.sink ++ b := rfl
@[simp] theorem sinkAppend_events (b : Bytes) (s : State) : (sinkAppend b s).events = s.events := rfl
@[simp] theorem sinkAppend_responses (b : Bytes) (s : State) : (sinkAppend b s).responses = s.responses := rfl
@[simp] theorem sinkAppend_inputs (b : Bytes) (s : State) : (sinkAppend b s).inputs = s.inputs := rfl
@[simp] theorem sinkAppend_draws (b : Bytes) (s : State) : (sinkAppend b s).draws = s.draws := rfl
@[simp] theorem sinkAppend_caller (b : Bytes) (s : State) : (sinkAppend b s).caller = s.caller := rfl
@[simp] theorem sinkAppend_freeCount (b : Bytes) (s : State) : (sinkAppend b s).freeCount = s.freeCount := rfl

/-! ### respondTo -/

@[simp] theorem respondTo_cfg (w : Nat) (st : Status) (r : Word16) (d : Bytes) (s : State) : (respondTo w st r d s).cfg = s.cfg := rfl
@[simp] theorem respondTo_buf (w : Nat) (st : Status) (r : Word16) (d : Bytes) (s : State) : (respondTo w st r d s).buf = s.buf := rfl
@[simp] theorem respondTo_head (w : Nat) (st : Status) (r : Word16) (d : Bytes) (s : State) : (respondTo w st r d s).head = s.head := rfl
@[simp] theorem respondTo_tail (w : Nat) (st : Status) (r : Word16) (d : Bytes) (s : State) : (respondTo w st r d s).tail = s.tail := rfl
@[simp] theorem respondTo_version (w : Nat) (st : Status) (r : Word16) (d : Bytes) (s : State) : (respondTo w st r d s).version = s.version := rfl
@[simp] theorem respondTo_initialized (w : Nat) (st : Status) (r : Word16) (d : Bytes) (s : State) : (respondTo w st r d s).initialized = s.initialized := rfl
@[simp] theorem respondTo_running (w : Nat) (st : Status) (r : Word16) (d : Bytes) (s : State) : (respondTo w st r d s).running = s.running := rfl
@[simp] theorem respondTo_derrPending (w : Nat) (st : Status) (r : Word16) (d : Bytes) (s : State) : (respondTo w st r d s).derrPending = s.derrPending := rfl
@[simp] theorem respondTo_derrCode (w : Nat) (st : Status) (r : Word16) (d : Bytes) (s : State) : (respondTo w st r d s).derrCode = s.derrCode := rfl
@[simp] theorem respondTo_ringLock (w : Nat) (st : Status) (r : Word16) (d : Bytes) (s : State) : (respondTo w st r d s).ringLock = s.ringLock := rfl
@[simp] theorem respondTo_sendLock (w : Nat) (st : Status) (r : Word16) (d : Bytes) (s : State) : (respondTo w st r d s).sendLock = s.sendLock := rfl
@[simp] theorem respondTo_scan (w : Nat) (st : Status) (r : Word16) (d : Bytes) (s : State) : (respondTo w st r d s).scan = s.scan := rfl
@[simp] theorem respondTo_rxFrame (w : Nat) (st : Status) (r : Word16) (d : Bytes) (s : State) : (respondTo w st r d s).rxFrame = s.rxFrame := rfl
@[simp] theorem respondTo_txbuf (w : Nat) (st : Status) (r : Word16) (d : Bytes) (s : State) : (respondTo w st r d s).txbuf = s.txbuf := rfl
@[simp] theorem respondTo_sink (w : Nat) (st : Status) (r : Word16) (d : Bytes) (s : State) : (respondTo w st r d s).sink = s.sink := rfl
@[simp] theorem respondTo_events (w : Nat) (st : Status) (r : Word16) (d : Bytes) (s : State) : (respondTo w st r d s).events = s.events := rfl
@[simp] theorem respondTo_responses (w : Nat) (st : Status) (r : Word16) (d : Bytes) (s : State) :
    (respondTo w st r d s).responses = s.responses ++ [{ issuer := w, status := st, result := r, dout := d }] := rfl
@[simp] theorem respondTo_inputs (w : Nat) (st : Status) (r : Word16) (d : Bytes) (s : State) : (respondTo w st r d s).inputs = s.inputs := rfl
@[simp] theorem respondTo_draws (w : Nat) (st : Status) (r : Word16) (d : Bytes) (s : State) : (respondTo w st r d s).draws = s.draws := rfl
@[simp] theorem respondTo_caller (w : Nat) (st : Status) (r : Word16) (d : Bytes) (s : State) : (respondTo w st r d s).caller = s.caller := rfl
@[simp] theorem respondTo_freeCount (w : Nat) (st : Status) (r : Word16) (d : Bytes) (s : State) : (respondTo w st r d s).freeCount = s.freeCount := rfl

/-! ### respond -/

@[simp] theorem respond_cfg (st : Status) (r : Word16) (d : Bytes) (s : State) : (respond st r d s).cfg = s.cfg := rfl
@[simp] theorem respond_buf (st : Status) (r : Word16) (d : Bytes) (s : State) : (respond st r d s).buf = s.buf := rfl
@[simp] theorem respond_head (st : Status) (r : Word16) (d : Bytes) (s : State) : (respond st r d s).head = s.head := rfl
@[simp] theorem respond_tail (st : Status) (r : Word16) (d : Bytes) (s : State) : (respond st r d s).tail = s.tail := rfl
@[simp] theorem respond_version (st : Status) (r : Word16) (d : Bytes) (s : State) : (respond st r d s).version = s.version := rfl
@[simp] theorem respond_initialized (st : Status) (r : Word16) (d : Bytes) (s : State) : (respond st r d s).initialized = s.initialized := rfl
@[simp] theorem respond_running (st : Status) (r : Word16) (d : Bytes) (s : State) : (respond st r d s).running = s.running := rfl
@[simp] theorem respond_derrPending (st : Status) (r : Word16) (d : Bytes) (s : State) : (respond st r d s).derrPending = s.derrPending := rfl
@[simp] theorem respond_derrCode (st : Status) (r : Word16) (d : Bytes) (s : State) : (respond st r d s).derrCode = s.derrCode := rfl
@[simp] theorem respond_ringLock (st : Status) (r : Word16) (d : Bytes) (s : State) : (respond st r d s).ringLock = s.ringLock := rfl
@[simp] theorem respond_sendLock (st : Status) (r : Word16) (d : Bytes) (s : State) : (respond st r d s).sendLock = s.sendLock := rfl
@[simp] theorem respond_scan (st : Status) (r : Word16) (d : Bytes) (s : State) : (respond st r d s).scan = s.scan := rfl
@[simp] theorem respond_rxFrame (st : Status) (r : Word16) (d : Bytes) (s : State) : (respond st r d s).rxFrame = s.rxFrame := rfl
@[simp] theorem respond_txbuf (st : Status) (r : Word16) (d : Bytes) (s : State) : (respond st r d s).txbuf = s.txbuf := rfl
@[simp] theorem respond_sink (st : Status) (r : Word16) (d : Bytes) (s : State) : (respond st r d s).sink = s.sink := rfl
@[simp] theorem respond_events (st : Status) (r : Word16) (d : Bytes) (s : State) : (respond st r d s).events = s.events := rfl
@[simp] theorem respond_responses (st : Status) (r : Word16) (d : Bytes) (s : State) :
    (respond st r d s).responses = s.responses ++ [{ issuer := s.caller, status := st, result := r, dout := d }] := rfl
@[simp] theorem respond_inputs (st : Status) (r : Word16) (d : Bytes) (s : State) : (respond st r d s).inputs = s.inputs := rfl
@[simp] theorem respond_draws (st : Status) (r : Word16) (d : Bytes) (s : State) : (respond st r d s).draws = s.draws := rfl
@[simp] theorem respond_caller (st : Status) (r : Word16) (d : Bytes) (s : State) : (respond st r d s).caller = s.caller := rfl
@[simp] theorem respond_freeCount (st : Status) (r : Word16) (d : Bytes) (s : State) : (respond st r d s).freeCount = s.freeCount := rfl

/-! ### reject -/

@[simp] theorem reject_cfg (st : Status) (s : State) : (reject st s).cfg = s.cfg := rfl
@[simp] theorem reject_buf (st : Status) (s : State) : (reject st s).buf = s.buf := rfl
@[simp] theorem reject_head (st : Status) (s : State) : (reject st s).head = s.head := rfl
@[simp] theorem reject_tail (st : Status) (s : State) : (reject st s).tail = s.tail := rfl
@[simp] theorem reject_version (st : Status) (s : State) : (reject st s).version = s.version := rfl
@[simp] theorem reject_initialized (st : Status) (s : State) : (reject st s).initialized = s.initialized := rfl
@[simp] theorem reject_running (st : Status) (s : State) : (reject st s).running = s.running := rfl
@[simp] theorem reject_derrPending (st : Status) (s : State) : (reject st s).derrPending = s.derrPending := rfl
@[simp] theorem reject_derrCode (st : Status) (s : State) : (reject st s).derrCode = s.derrCode := rfl
@[simp] theorem reject_ringLock (st : Status) (s : State) : (reject st s).ringLock = s.ringLock := rfl
@[simp] theorem reject_sendLock (st : Status) (s : State) : (reject st s).sendLock = s.sendLock := rfl
@[simp] theorem reject_scan (st : Status) (s : State) : (reject st s).scan = s.scan := rfl
@[simp] theorem reject_rxFrame (st : Status) (s : State) : (reject st s).rxFrame = s.rxFrame := rfl
@[simp] theorem reject_txbuf (st : Status) (s : State) : (reject st s).txbuf = s.txbuf := rfl
@[simp] theorem reject_sink (st : Status) (s : State) : (reject st s).sink = s.sink := rfl
@[simp] theorem reject_events (st : Status) (s : State) : (reject st s).events = s.events := rfl
@[simp] theorem reject_responses (st : Status) (s : State) :
    (reject st s).responses = s.responses ++ [{ issuer := s.caller, status := st, result := 0, dout := [] }] := rfl
@[simp] theorem reject_inputs (st : Status) (s : State) : (reject st s).inputs = s.inputs := rfl
@[simp] theorem reject_draws (st : Status) (s : State) : (reject st s).draws = s.draws := rfl
@[simp] theorem reject_caller (st : Status) (s : State) : (reject st s).caller = s.caller := rfl
@[simp] theorem reject_freeCount (st : Status) (s : State) : (reject st s).freeCount = s.freeCount := rfl

/-! ### ringStore -/

@[simp] theorem ringStore_cfg (D : Bytes) (a : Nat) (s : State) : (ringStore D a s).cfg = s.cfg := rfl
@[simp] theorem ringStore_buf (D : Bytes) (a : Nat) (s : State) :
    (ringStore D a s).buf = Memory.writeAll s.cfg.C s.buf s.tail.toNat (D.take a) := rfl
@[simp] theorem ringStore_head (D : Bytes) (a : Nat) (s : State) : (ringStore D a s).head = s.head := rfl
@[simp] theorem ringStore_tail (D : Bytes) (a : Nat) (s : State) :
    (ringStore D a s).tail = word16 ((s.tail.toNat + a) % s.cfg.C) := rfl
@[simp] theorem ringStore_version (D : Bytes) (a : Nat) (s : State) :
    (ringStore D a s).version = bumpVersion a s.version := rfl
@[simp] theorem ringStore_initialized (D : Bytes) (a : Nat) (s : State) : (ringStore D a s).initialized = s.initialized := rfl
@[simp] theorem ringStore_running (D : Bytes) (a : Nat) (s : State) : (ringStore D a s).running = s.running := rfl
@[simp] theorem ringStore_derrPending (D : Bytes) (a : Nat) (s : State) : (ringStore D a s).derrPending = s.derrPending := rfl
@[simp] theorem ringStore_derrCode (D : Bytes) (a : Nat) (s : State) : (ringStore D a s).derrCode = s.derrCode := rfl
@[simp] theorem ringStore_ringLock (D : Bytes) (a : Nat) (s : State) : (ringStore D a s).ringLock = s.ringLock := rfl
@[simp] theorem ringStore_sendLock (D : Bytes) (a : Nat) (s : State) : (ringStore D a s).sendLock = s.sendLock := rfl
@[simp] theorem ringStore_scan (D : Bytes) (a : Nat) (s : State) : (ringStore D a s).scan = s.scan := rfl
@[simp] theorem ringStore_rxFrame (D : Bytes) (a : Nat) (s : State) : (ringStore D a s).rxFrame = s.rxFrame := rfl
@[simp] theorem ringStore_txbuf (D : Bytes) (a : Nat) (s : State) : (ringStore D a s).txbuf = s.txbuf := rfl
@[simp] theorem ringStore_sink (D : Bytes) (a : Nat) (s : State) : (ringStore D a s).sink = s.sink := rfl
@[simp] theorem ringStore_events (D : Bytes) (a : Nat) (s : State) : (ringStore D a s).events = s.events := rfl
@[simp] theorem ringStore_responses (D : Bytes) (a : Nat) (s : State) : (ringStore D a s).responses = s.responses := rfl
@[simp] theorem ringStore_inputs (D : Bytes) (a : Nat) (s : State) : (ringStore D a s).inputs = s.inputs := rfl
@[simp] theorem ringStore_draws (D : Bytes) (a : Nat) (s : State) : (ringStore D a s).draws = s.draws := rfl
@[simp] theorem ringStore_caller (D : Bytes) (a : Nat) (s : State) : (ringStore D a s).caller = s.caller := rfl
@[simp] theorem ringStore_freeCount (D : Bytes) (a : Nat) (s : State) : (ringStore D a s).freeCount = s.freeCount := rfl

/-! ### ringDiscard -/

@[simp] theorem ringDiscard_cfg (n : Nat) (s : State) : (ringDiscard n s).cfg = s.cfg := rfl
@[simp] theorem ringDiscard_buf (n : Nat) (s : State) : (ringDiscard n s).buf = s.buf := rfl
@[simp] theorem ringDiscard_head (n : Nat) (s : State) :
    (ringDiscard n s).head = word16 ((s.head.toNat + takeCount n s) % s.cfg.C) := rfl
@[simp] theorem ringDiscard_tail (n : Nat) (s : State) : (ringDiscard n s).tail = s.tail := rfl
@[simp] theorem ringDiscard_version (n : Nat) (s : State) :
    (ringDiscard n s).version = bumpVersion (takeCount n s) s.version := rfl
@[simp] theorem ringDiscard_initialized (n : Nat) (s : State) : (ringDiscard n s).initialized = s.initialized := rfl
@[simp] theorem ringDiscard_running (n : Nat) (s : State) : (ringDiscard n s).running = s.running := rfl
@[simp] theorem ringDiscard_derrPending (n : Nat) (s : State) : (ringDiscard n s).derrPending = s.derrPending := rfl
@[simp] theorem ringDiscard_derrCode (n : Nat) (s : State) : (ringDiscard n s).derrCode = s.derrCode := rfl
@[simp] theorem ringDiscard_ringLock (n : Nat) (s : State) : (ringDiscard n s).ringLock = s.ringLock := rfl
@[simp] theorem ringDiscard_sendLock (n : Nat) (s : State) : (ringDiscard n s).sendLock = s.sendLock := rfl
@[simp] theorem ringDiscard_scan (n : Nat) (s : State) : (ringDiscard n s).scan = s.scan := rfl
@[simp] theorem ringDiscard_rxFrame (n : Nat) (s : State) : (ringDiscard n s).rxFrame = s.rxFrame := rfl
@[simp] theorem ringDiscard_txbuf (n : Nat) (s : State) : (ringDiscard n s).txbuf = s.txbuf := rfl
@[simp] theorem ringDiscard_sink (n : Nat) (s : State) : (ringDiscard n s).sink = s.sink := rfl
@[simp] theorem ringDiscard_events (n : Nat) (s : State) : (ringDiscard n s).events = s.events := rfl
@[simp] theorem ringDiscard_responses (n : Nat) (s : State) : (ringDiscard n s).responses = s.responses := rfl
@[simp] theorem ringDiscard_inputs (n : Nat) (s : State) : (ringDiscard n s).inputs = s.inputs := rfl
@[simp] theorem ringDiscard_draws (n : Nat) (s : State) : (ringDiscard n s).draws = s.draws := rfl
@[simp] theorem ringDiscard_caller (n : Nat) (s : State) : (ringDiscard n s).caller = s.caller := rfl
@[simp] theorem ringDiscard_freeCount (n : Nat) (s : State) : (ringDiscard n s).freeCount = s.freeCount := rfl

/-! ### setInitialized -/

@[simp] theorem setInitialized_cfg (s : State) : (setInitialized s).cfg = s.cfg := rfl
@[simp] theorem setInitialized_buf (s : State) : (setInitialized s).buf = s.buf := rfl
@[simp] theorem setInitialized_head (s : State) : (setInitialized s).head = s.head := rfl
@[simp] theorem setInitialized_tail (s : State) : (setInitialized s).tail = s.tail := rfl
@[simp] theorem setInitialized_version (s : State) : (setInitialized s).version = s.version := rfl
@[simp] theorem setInitialized_initialized (s : State) :
    (setInitialized s).initialized = true := rfl
@[simp] theorem setInitialized_running (s : State) :
    (setInitialized s).running = false := rfl
@[simp] theorem setInitialized_derrPending (s : State) : (setInitialized s).derrPending = s.derrPending := rfl
@[simp] theorem setInitialized_derrCode (s : State) : (setInitialized s).derrCode = s.derrCode := rfl
@[simp] theorem setInitialized_ringLock (s : State) : (setInitialized s).ringLock = s.ringLock := rfl
@[simp] theorem setInitialized_sendLock (s : State) : (setInitialized s).sendLock = s.sendLock := rfl
@[simp] theorem setInitialized_scan (s : State) : (setInitialized s).scan = s.scan := rfl
@[simp] theorem setInitialized_rxFrame (s : State) : (setInitialized s).rxFrame = s.rxFrame := rfl
@[simp] theorem setInitialized_txbuf (s : State) : (setInitialized s).txbuf = s.txbuf := rfl
@[simp] theorem setInitialized_sink (s : State) : (setInitialized s).sink = s.sink := rfl
@[simp] theorem setInitialized_events (s : State) : (setInitialized s).events = s.events := rfl
@[simp] theorem setInitialized_responses (s : State) : (setInitialized s).responses = s.responses := rfl
@[simp] theorem setInitialized_inputs (s : State) : (setInitialized s).inputs = s.inputs := rfl
@[simp] theorem setInitialized_draws (s : State) : (setInitialized s).draws = s.draws := rfl
@[simp] theorem setInitialized_caller (s : State) : (setInitialized s).caller = s.caller := rfl
@[simp] theorem setInitialized_freeCount (s : State) : (setInitialized s).freeCount = s.freeCount := rfl

/-! ### setRunning -/

@[simp] theorem setRunning_cfg (s : State) : (setRunning s).cfg = s.cfg := rfl
@[simp] theorem setRunning_buf (s : State) : (setRunning s).buf = s.buf := rfl
@[simp] theorem setRunning_head (s : State) : (setRunning s).head = s.head := rfl
@[simp] theorem setRunning_tail (s : State) : (setRunning s).tail = s.tail := rfl
@[simp] theorem setRunning_version (s : State) : (setRunning s).version = s.version := rfl
@[simp] theorem setRunning_initialized (s : State) : (setRunning s).initialized = s.initialized := rfl
@[simp] theorem setRunning_running (s : State) :
    (setRunning s).running = true := rfl
@[simp] theorem setRunning_derrPending (s : State) : (setRunning s).derrPending = s.derrPending := rfl
@[simp] theorem setRunning_derrCode (s : State) : (setRunning s).derrCode = s.derrCode := rfl
@[simp] theorem setRunning_ringLock (s : State) : (setRunning s).ringLock = s.ringLock := rfl
@[simp] theorem setRunning_sendLock (s : State) : (setRunning s).sendLock = s.sendLock := rfl
@[simp] theorem setRunning_scan (s : State) : (setRunning s).scan = s.scan := rfl
@[simp] theorem setRunning_rxFrame (s : State) : (setRunning s).rxFrame = s.rxFrame := rfl
@[simp] theorem setRunning_txbuf (s : State) : (setRunning s).txbuf = s.txbuf := rfl
@[simp] theorem setRunning_sink (s : State) : (setRunning s).sink = s.sink := rfl
@[simp] theorem setRunning_events (s : State) : (setRunning s).events = s.events := rfl
@[simp] theorem setRunning_responses (s : State) : (setRunning s).responses = s.responses := rfl
@[simp] theorem setRunning_inputs (s : State) : (setRunning s).inputs = s.inputs := rfl
@[simp] theorem setRunning_draws (s : State) : (setRunning s).draws = s.draws := rfl
@[simp] theorem setRunning_caller (s : State) : (setRunning s).caller = s.caller := rfl
@[simp] theorem setRunning_freeCount (s : State) : (setRunning s).freeCount = s.freeCount := rfl

/-! ### clearDerr -/

@[simp] theorem clearDerr_cfg (s : State) : (clearDerr s).cfg = s.cfg := rfl
@[simp] theorem clearDerr_buf (s : State) : (clearDerr s).buf = s.buf := rfl
@[simp] theorem clearDerr_head (s : State) : (clearDerr s).head = s.head := rfl
@[simp] theorem clearDerr_tail (s : State) : (clearDerr s).tail = s.tail := rfl
@[simp] theorem clearDerr_version (s : State) : (clearDerr s).version = s.version := rfl
@[simp] theorem clearDerr_initialized (s : State) : (clearDerr s).initialized = s.initialized := rfl
@[simp] theorem clearDerr_running (s : State) : (clearDerr s).running = s.running := rfl
@[simp] theorem clearDerr_derrPending (s : State) :
    (clearDerr s).derrPending = false := rfl
@[simp] theorem clearDerr_derrCode (s : State) : (clearDerr s).derrCode = s.derrCode := rfl
@[simp] theorem clearDerr_ringLock (s : State) : (clearDerr s).ringLock = s.ringLock := rfl
@[simp] theorem clearDerr_sendLock (s : State) : (clearDerr s).sendLock = s.sendLock := rfl
@[simp] theorem clearDerr_scan (s : State) : (clearDerr s).scan = s.scan := rfl
@[simp] theorem clearDerr_rxFrame (s : State) : (clearDerr s).rxFrame = s.rxFrame := rfl
@[simp] theorem clearDerr_txbuf (s : State) : (clearDerr s).txbuf = s.txbuf := rfl
@[simp] theorem clearDerr_sink (s : State) : (clearDerr s).sink = s.sink := rfl
@[simp] theorem clearDerr_events (s : State) : (clearDerr s).events = s.events := rfl
@[simp] theorem clearDerr_responses (s : State) : (clearDerr s).responses = s.responses := rfl
@[simp] theorem clearDerr_inputs (s : State) : (clearDerr s).inputs = s.inputs := rfl
@[simp] theorem clearDerr_draws (s : State) : (clearDerr s).draws = s.draws := rfl
@[simp] theorem clearDerr_caller (s : State) : (clearDerr s).caller = s.caller := rfl
@[simp] theorem clearDerr_freeCount (s : State) : (clearDerr s).freeCount = s.freeCount := rfl

/-! ### spoilRxFrame -/

@[simp] theorem spoilRxFrame_cfg (s : State) : (spoilRxFrame s).cfg = s.cfg := rfl
@[simp] theorem spoilRxFrame_buf (s : State) : (spoilRxFrame s).buf = s.buf := rfl
@[simp] theorem spoilRxFrame_head (s : State) : (spoilRxFrame s).head = s.head := rfl
@[simp] theorem spoilRxFrame_tail (s : State) : (spoilRxFrame s).tail = s.tail := rfl
@[simp] theorem spoilRxFrame_version (s : State) : (spoilRxFrame s).version = s.version := rfl
@[simp] theorem spoilRxFrame_initialized (s : State) : (spoilRxFrame s).initialized = s.initialized := rfl
@[simp] theorem spoilRxFrame_running (s : State) : (spoilRxFrame s).running = s.running := rfl
@[simp] theorem spoilRxFrame_derrPending (s : State) : (spoilRxFrame s).derrPending = s.derrPending := rfl
@[simp] theorem spoilRxFrame_derrCode (s : State) : (spoilRxFrame s).derrCode = s.derrCode := rfl
@[simp] theorem spoilRxFrame_ringLock (s : State) : (spoilRxFrame s).ringLock = s.ringLock := rfl
@[simp] theorem spoilRxFrame_sendLock (s : State) : (spoilRxFrame s).sendLock = s.sendLock := rfl
@[simp] theorem spoilRxFrame_scan (s : State) : (spoilRxFrame s).scan = s.scan := rfl
@[simp] theorem spoilRxFrame_rxFrame (s : State) :
    (spoilRxFrame s).rxFrame = freeFrame s.cfg.codec s.freeCount := rfl
@[simp] theorem spoilRxFrame_txbuf (s : State) : (spoilRxFrame s).txbuf = s.txbuf := rfl
@[simp] theorem spoilRxFrame_sink (s : State) : (spoilRxFrame s).sink = s.sink := rfl
@[simp] theorem spoilRxFrame_events (s : State) : (spoilRxFrame s).events = s.events := rfl
@[simp] theorem spoilRxFrame_responses (s : State) : (spoilRxFrame s).responses = s.responses := rfl
@[simp] theorem spoilRxFrame_inputs (s : State) : (spoilRxFrame s).inputs = s.inputs := rfl
@[simp] theorem spoilRxFrame_draws (s : State) : (spoilRxFrame s).draws = s.draws := rfl
@[simp] theorem spoilRxFrame_caller (s : State) : (spoilRxFrame s).caller = s.caller := rfl
@[simp] theorem spoilRxFrame_freeCount (s : State) :
    (spoilRxFrame s).freeCount = s.freeCount + 1 := rfl

/-! ### pollEnd -/

@[simp] theorem pollEnd_cfg (sc : Scan) (st : Status) (r : Nat) (s : State) : (pollEnd sc st r s).cfg = s.cfg := rfl
@[simp] theorem pollEnd_buf (sc : Scan) (st : Status) (r : Nat) (s : State) : (pollEnd sc st r s).buf = s.buf := rfl
@[simp] theorem pollEnd_head (sc : Scan) (st : Status) (r : Nat) (s : State) : (pollEnd sc st r s).head = s.head := rfl
@[simp] theorem pollEnd_tail (sc : Scan) (st : Status) (r : Nat) (s : State) : (pollEnd sc st r s).tail = s.tail := rfl
@[simp] theorem pollEnd_version (sc : Scan) (st : Status) (r : Nat) (s : State) : (pollEnd sc st r s).version = s.version := rfl
@[simp] theorem pollEnd_initialized (sc : Scan) (st : Status) (r : Nat) (s : State) : (pollEnd sc st r s).initialized = s.initialized := rfl
@[simp] theorem pollEnd_running (sc : Scan) (st : Status) (r : Nat) (s : State) : (pollEnd sc st r s).running = s.running := rfl
@[simp] theorem pollEnd_derrPending (sc : Scan) (st : Status) (r : Nat) (s : State) : (pollEnd sc st r s).derrPending = s.derrPending := rfl
@[simp] theorem pollEnd_derrCode (sc : Scan) (st : Status) (r : Nat) (s : State) : (pollEnd sc st r s).derrCode = s.derrCode := rfl
@[simp] theorem pollEnd_ringLock (sc : Scan) (st : Status) (r : Nat) (s : State) : (pollEnd sc st r s).ringLock = s.ringLock := rfl
@[simp] theorem pollEnd_sendLock (sc : Scan) (st : Status) (r : Nat) (s : State) : (pollEnd sc st r s).sendLock = s.sendLock := rfl
@[simp] theorem pollEnd_scan (sc : Scan) (st : Status) (r : Nat) (s : State) :
    (pollEnd sc st r s).scan = none := rfl
@[simp] theorem pollEnd_rxFrame (sc : Scan) (st : Status) (r : Nat) (s : State) : (pollEnd sc st r s).rxFrame = s.rxFrame := rfl
@[simp] theorem pollEnd_txbuf (sc : Scan) (st : Status) (r : Nat) (s : State) : (pollEnd sc st r s).txbuf = s.txbuf := rfl
@[simp] theorem pollEnd_sink (sc : Scan) (st : Status) (r : Nat) (s : State) : (pollEnd sc st r s).sink = s.sink := rfl
@[simp] theorem pollEnd_events (sc : Scan) (st : Status) (r : Nat) (s : State) : (pollEnd sc st r s).events = s.events := rfl
@[simp] theorem pollEnd_responses (sc : Scan) (st : Status) (r : Nat) (s : State) :
    (pollEnd sc st r s).responses = s.responses ++ [{ issuer := sc.issuer, status := st, result := word16 r, dout := [] }] := rfl
@[simp] theorem pollEnd_inputs (sc : Scan) (st : Status) (r : Nat) (s : State) : (pollEnd sc st r s).inputs = s.inputs := rfl
@[simp] theorem pollEnd_draws (sc : Scan) (st : Status) (r : Nat) (s : State) : (pollEnd sc st r s).draws = s.draws := rfl
@[simp] theorem pollEnd_caller (sc : Scan) (st : Status) (r : Nat) (s : State) : (pollEnd sc st r s).caller = s.caller := rfl
@[simp] theorem pollEnd_freeCount (sc : Scan) (st : Status) (r : Nat) (s : State) : (pollEnd sc st r s).freeCount = s.freeCount := rfl

/-! ### setRingLock -/

@[simp] theorem setRingLock_cfg (l : Lock) (s : State) : (setRingLock l s).cfg = s.cfg := rfl
@[simp] theorem setRingLock_buf (l : Lock) (s : State) : (setRingLock l s).buf = s.buf := rfl
@[simp] theorem setRingLock_head (l : Lock) (s : State) : (setRingLock l s).head = s.head := rfl
@[simp] theorem setRingLock_tail (l : Lock) (s : State) : (setRingLock l s).tail = s.tail := rfl
@[simp] theorem setRingLock_version (l : Lock) (s : State) : (setRingLock l s).version = s.version := rfl
@[simp] theorem setRingLock_initialized (l : Lock) (s : State) : (setRingLock l s).initialized = s.initialized := rfl
@[simp] theorem setRingLock_running (l : Lock) (s : State) : (setRingLock l s).running = s.running := rfl
@[simp] theorem setRingLock_derrPending (l : Lock) (s : State) : (setRingLock l s).derrPending = s.derrPending := rfl
@[simp] theorem setRingLock_derrCode (l : Lock) (s : State) : (setRingLock l s).derrCode = s.derrCode := rfl
@[simp] theorem setRingLock_ringLock (l : Lock) (s : State) : (setRingLock l s).ringLock = l := rfl
@[simp] theorem setRingLock_sendLock (l : Lock) (s : State) : (setRingLock l s).sendLock = s.sendLock := rfl
@[simp] theorem setRingLock_scan (l : Lock) (s : State) : (setRingLock l s).scan = s.scan := rfl
@[simp] theorem setRingLock_rxFrame (l : Lock) (s : State) : (setRingLock l s).rxFrame = s.rxFrame := rfl
@[simp] theorem setRingLock_txbuf (l : Lock) (s : State) : (setRingLock l s).txbuf = s.txbuf := rfl
@[simp] theorem setRingLock_sink (l : Lock) (s : State) : (setRingLock l s).sink = s.sink := rfl
@[simp] theorem setRingLock_events (l : Lock) (s : State) : (setRingLock l s).events = s.events := rfl
@[simp] theorem setRingLock_responses (l : Lock) (s : State) : (setRingLock l s).responses = s.responses := rfl
@[simp] theorem setRingLock_inputs (l : Lock) (s : State) : (setRingLock l s).inputs = s.inputs := rfl
@[simp] theorem setRingLock_draws (l : Lock) (s : State) : (setRingLock l s).draws = s.draws := rfl
@[simp] theorem setRingLock_caller (l : Lock) (s : State) : (setRingLock l s).caller = s.caller := rfl
@[simp] theorem setRingLock_freeCount (l : Lock) (s : State) : (setRingLock l s).freeCount = s.freeCount := rfl

/-! ### setSendLock -/

@[simp] theorem setSendLock_cfg (l : Lock) (s : State) : (setSendLock l s).cfg = s.cfg := rfl
@[simp] theorem setSendLock_buf (l : Lock) (s : State) : (setSendLock l s).buf = s.buf := rfl
@[simp] theorem setSendLock_head (l : Lock) (s : State) : (setSendLock l s).head = s.head := rfl
@[simp] theorem setSendLock_tail (l : Lock) (s : State) : (setSendLock l s).tail = s.tail := rfl
@[simp] theorem setSendLock_version (l : Lock) (s : State) : (setSendLock l s).version = s.version := rfl
@[simp] theorem setSendLock_initialized (l : Lock) (s : State) : (setSendLock l s).initialized = s.initialized := rfl
@[simp] theorem setSendLock_running (l : Lock) (s : State) : (setSendLock l s).running = s.running := rfl
@[simp] theorem setSendLock_derrPending (l : Lock) (s : State) : (setSendLock l s).derrPending = s.derrPending := rfl
@[simp] theorem setSendLock_derrCode (l : Lock) (s : State) : (setSendLock l s).derrCode = s.derrCode := rfl
@[simp] theorem setSendLock_ringLock (l : Lock) (s : State) : (setSendLock l s).ringLock = s.ringLock := rfl
@[simp] theorem setSendLock_sendLock (l : Lock) (s : State) : (setSendLock l s).sendLock = l := rfl
@[simp] theorem setSendLock_scan (l : Lock) (s : State) : (setSendLock l s).scan = s.scan := rfl
@[simp] theorem setSendLock_rxFrame (l : Lock) (s : State) : (setSendLock l s).rxFrame = s.rxFrame := rfl
@[simp] theorem setSendLock_txbuf (l : Lock) (s : State) : (setSendLock l s).txbuf = s.txbuf := rfl
@[simp] theorem setSendLock_sink (l : Lock) (s : State) : (setSendLock l s).sink = s.sink := rfl
@[simp] theorem setSendLock_events (l : Lock) (s : State) : (setSendLock l s).events = s.events := rfl
@[simp] theorem setSendLock_responses (l : Lock) (s : State) : (setSendLock l s).responses = s.responses := rfl
@[simp] theorem setSendLock_inputs (l : Lock) (s : State) : (setSendLock l s).inputs = s.inputs := rfl
@[simp] theorem setSendLock_draws (l : Lock) (s : State) : (setSendLock l s).draws = s.draws := rfl
@[simp] theorem setSendLock_caller (l : Lock) (s : State) : (setSendLock l s).caller = s.caller := rfl
@[simp] theorem setSendLock_freeCount (l : Lock) (s : State) : (setSendLock l s).freeCount = s.freeCount := rfl

/-! ### storeTx -/

@[simp] theorem storeTx_cfg (B : Bytes) (s : State) : (storeTx B s).cfg = s.cfg := rfl
@[simp] theorem storeTx_buf (B : Bytes) (s : State) : (storeTx B s).buf = s.buf := rfl
@[simp] theorem storeTx_head (B : Bytes) (s : State) : (storeTx B s).head = s.head := rfl
@[simp] theorem storeTx_tail (B : Bytes) (s : State) : (storeTx B s).tail = s.tail := rfl
@[simp] theorem storeTx_version (B : Bytes) (s : State) : (storeTx B s).version = s.version := rfl
@[simp] theorem storeTx_initialized (B : Bytes) (s : State) : (storeTx B s).initialized = s.initialized := rfl
@[simp] theorem storeTx_running (B : Bytes) (s : State) : (storeTx B s).running = s.running := rfl
@[simp] theorem storeTx_derrPending (B : Bytes) (s : State) : (storeTx B s).derrPending = s.derrPending := rfl
@[simp] theorem storeTx_derrCode (B : Bytes) (s : State) : (storeTx B s).derrCode = s.derrCode := rfl
@[simp] theorem storeTx_ringLock (B : Bytes) (s : State) : (storeTx B s).ringLock = s.ringLock := rfl
@[simp] theorem storeTx_sendLock (B : Bytes) (s : State) : (storeTx B s).sendLock = s.sendLock := rfl
@[simp] theorem storeTx_scan (B : Bytes) (s : State) : (storeTx B s).scan = s.scan := rfl
@[simp] theorem storeTx_rxFrame (B : Bytes) (s : State) : (storeTx B s).rxFrame = s.rxFrame := rfl
@[simp] theorem storeTx_txbuf (B : Bytes) (s : State) : (storeTx B s).txbuf = Memory.writeAll s.cfg.txLen s.txbuf 0 B := rfl
@[simp] theorem storeTx_sink (B : Bytes) (s : State) : (storeTx B s).sink = s.sink := rfl
@[simp] theorem storeTx_events (B : Bytes) (s : State) : (storeTx B s).events = s.events := rfl
@[simp] theorem storeTx_responses (B : Bytes) (s : State) : (storeTx B s).responses = s.responses := rfl
@[simp] theorem storeTx_inputs (B : Bytes) (s : State) : (storeTx B s).inputs = s.inputs := rfl
@[simp] theorem storeTx_draws (B : Bytes) (s : State) : (storeTx B s).draws = s.draws := rfl
@[simp] theorem storeTx_caller (B : Bytes) (s : State) : (storeTx B s).caller = s.caller := rfl
@[simp] theorem storeTx_freeCount (B : Bytes) (s : State) : (storeTx B s).freeCount = s.freeCount := rfl

/-! ### setRxFrame -/

@[simp] theorem setRxFrame_cfg (F : Frame) (s : State) : (setRxFrame F s).cfg = s.cfg := rfl
@[simp] theorem setRxFrame_buf (F : Frame) (s : State) : (setRxFrame F s).buf = s.buf := rfl
@[simp] theorem setRxFrame_head (F : Frame) (s : State) : (setRxFrame F s).head = s.head := rfl
@[simp] theorem setRxFrame_tail (F : Frame) (s : State) : (setRxFrame F s).tail = s.tail := rfl
@[simp] theorem setRxFrame_version (F : Frame) (s : State) : (setRxFrame F s).version = s.version := rfl
@[simp] theorem setRxFrame_initialized (F : Frame) (s : State) : (setRxFrame F s).initialized = s.initialized := rfl
@[simp] theorem setRxFrame_running (F : Frame) (s : State) : (setRxFrame F s).running = s.running := rfl
@[simp] theorem setRxFrame_derrPending (F : Frame) (s : State) : (setRxFrame F s).derrPending = s.derrPending := rfl
@[simp] theorem setRxFrame_derrCode (F : Frame) (s : State) : (setRxFrame F s).derrCode = s.derrCode := rfl
@[simp] theorem setRxFrame_ringLock (F : Frame) (s : State) : (setRxFrame F s).ringLock = s.ringLock := rfl
@[simp] theorem setRxFrame_sendLock (F : Frame) (s : State) : (setRxFrame F s).sendLock = s.sendLock := rfl
@[simp] theorem setRxFrame_scan (F : Frame) (s : State) : (setRxFrame F s).scan = s.scan := rfl
@[simp] theorem setRxFrame_rxFrame (F : Frame) (s : State) : (setRxFrame F s).rxFrame = F := rfl
@[simp] theorem setRxFrame_txbuf (F : Frame) (s : State) : (setRxFrame F s).txbuf = s.txbuf := rfl
@[simp] theorem setRxFrame_sink (F : Frame) (s : State) : (setRxFrame F s).sink = s.sink := rfl
@[simp] theorem setRxFrame_events (F : Frame) (s : State) : (setRxFrame F s).events = s.events := rfl
@[simp] theorem setRxFrame_responses (F : Frame) (s : State) : (setRxFrame F s).responses = s.responses := rfl
@[simp] theorem setRxFrame_inputs (F : Frame) (s : State) : (setRxFrame F s).inputs = s.inputs := rfl
@[simp] theorem setRxFrame_draws (F : Frame) (s : State) : (setRxFrame F s).draws = s.draws := rfl
@[simp] theorem setRxFrame_caller (F : Frame) (s : State) : (setRxFrame F s).caller = s.caller := rfl
@[simp] theorem setRxFrame_freeCount (F : Frame) (s : State) : (setRxFrame F s).freeCount = s.freeCount := rfl

/-! ### setScan -/

@[simp] theorem setScan_cfg (o : Option Scan) (s : State) : (setScan o s).cfg = s.cfg := rfl
@[simp] theorem setScan_buf (o : Option Scan) (s : State) : (setScan o s).buf = s.buf := rfl
@[simp] theorem setScan_head (o : Option Scan) (s : State) : (setScan o s).head = s.head := rfl
@[simp] theorem setScan_tail (o : Option Scan) (s : State) : (setScan o s).tail = s.tail := rfl
@[simp] theorem setScan_version (o : Option Scan) (s : State) : (setScan o s).version = s.version := rfl
@[simp] theorem setScan_initialized (o : Option Scan) (s : State) : (setScan o s).initialized = s.initialized := rfl
@[simp] theorem setScan_running (o : Option Scan) (s : State) : (setScan o s).running = s.running := rfl
@[simp] theorem setScan_derrPending (o : Option Scan) (s : State) : (setScan o s).derrPending = s.derrPending := rfl
@[simp] theorem setScan_derrCode (o : Option Scan) (s : State) : (setScan o s).derrCode = s.derrCode := rfl
@[simp] theorem setScan_ringLock (o : Option Scan) (s : State) : (setScan o s).ringLock = s.ringLock := rfl
@[simp] theorem setScan_sendLock (o : Option Scan) (s : State) : (setScan o s).sendLock = s.sendLock := rfl
@[simp] theorem setScan_scan (o : Option Scan) (s : State) : (setScan o s).scan = o := rfl
@[simp] theorem setScan_rxFrame (o : Option Scan) (s : State) : (setScan o s).rxFrame = s.rxFrame := rfl
@[simp] theorem setScan_txbuf (o : Option Scan) (s : State) : (setScan o s).txbuf = s.txbuf := rfl
@[simp] theorem setScan_sink (o : Option Scan) (s : State) : (setScan o s).sink = s.sink := rfl
@[simp] theorem setScan_events (o : Option Scan) (s : State) : (setScan o s).events = s.events := rfl
@[simp] theorem setScan_responses (o : Option Scan) (s : State) : (setScan o s).responses = s.responses := rfl
@[simp] theorem setScan_inputs (o : Option Scan) (s : State) : (setScan o s).inputs = s.inputs := rfl
@[simp] theorem setScan_draws (o : Option Scan) (s : State) : (setScan o s).draws = s.draws := rfl
@[simp] theorem setScan_caller (o : Option Scan) (s : State) : (setScan o s).caller = s.caller := rfl
@[simp] theorem setScan_freeCount (o : Option Scan) (s : State) : (setScan o s).freeCount = s.freeCount := rfl

/-! ### ringEnqueue -/

@[simp] theorem ringEnqueue_cfg (D : Bytes) (s : State) : (ringEnqueue D s).cfg = s.cfg := by
  unfold ringEnqueue; dsimp only; split <;> rfl
@[simp] theorem ringEnqueue_buf (D : Bytes) (s : State) : (ringEnqueue D s).buf = Memory.writeAll s.cfg.C s.buf s.tail.toNat (D.take (enqueueCount D s)) := by
  unfold ringEnqueue; dsimp only; split <;> rfl
@[simp] theorem ringEnqueue_head (D : Bytes) (s : State) : (ringEnqueue D s).head = s.head := by
  unfold ringEnqueue; dsimp only; split <;> rfl
@[simp] theorem ringEnqueue_tail (D : Bytes) (s : State) : (ringEnqueue D s).tail = word16 ((s.tail.toNat + enqueueCount D s) % s.cfg.C) := by
  unfold ringEnqueue; dsimp only; split <;> rfl
@[simp] theorem ringEnqueue_version (D : Bytes) (s : State) : (ringEnqueue D s).version = bumpVersion (enqueueCount D s) s.version := by
  unfold ringEnqueue; dsimp only; split <;> rfl
@[simp] theorem ringEnqueue_initialized (D : Bytes) (s : State) : (ringEnqueue D s).initialized = s.initialized := by
  unfold ringEnqueue; dsimp only; split <;> rfl
@[simp] theorem ringEnqueue_running (D : Bytes) (s : State) : (ringEnqueue D s).running = s.running := by
  unfold ringEnqueue; dsimp only; split <;> rfl
@[simp] theorem ringEnqueue_derrPending (D : Bytes) (s : State) : (ringEnqueue D s).derrPending = s.derrPending := by
  unfold ringEnqueue; dsimp only; split <;> rfl
@[simp] theorem ringEnqueue_derrCode (D : Bytes) (s : State) : (ringEnqueue D s).derrCode = s.derrCode := by
  unfold ringEnqueue; dsimp only; split <;> rfl
@[simp] theorem ringEnqueue_ringLock (D : Bytes) (s : State) : (ringEnqueue D s).ringLock = s.ringLock := by
  unfold ringEnqueue; dsimp only; split <;> rfl
@[simp] theorem ringEnqueue_sendLock (D : Bytes) (s : State) : (ringEnqueue D s).sendLock = s.sendLock := by
  unfold ringEnqueue; dsimp only; split <;> rfl
@[simp] theorem ringEnqueue_scan (D : Bytes) (s : State) : (ringEnqueue D s).scan = s.scan := by
  unfold ringEnqueue; dsimp only; split <;> rfl
@[simp] theorem ringEnqueue_rxFrame (D : Bytes) (s : State) : (ringEnqueue D s).rxFrame = s.rxFrame := by
  unfold ringEnqueue; dsimp only; split <;> rfl
@[simp] theorem ringEnqueue_txbuf (D : Bytes) (s : State) : (ringEnqueue D s).txbuf = s.txbuf := by
  unfold ringEnqueue; dsimp only; split <;> rfl
@[simp] theorem ringEnqueue_sink (D : Bytes) (s : State) : (ringEnqueue D s).sink = s.sink := by
  unfold ringEnqueue; dsimp only; split <;> rfl
@[simp] theorem ringEnqueue_responses (D : Bytes) (s : State) : (ringEnqueue D s).responses = s.responses := by
  unfold ringEnqueue; dsimp only; split <;> rfl
@[simp] theorem ringEnqueue_inputs (D : Bytes) (s : State) : (ringEnqueue D s).inputs = s.inputs := by
  unfold ringEnqueue; dsimp only; split <;> rfl
@[simp] theorem ringEnqueue_draws (D : Bytes) (s : State) : (ringEnqueue D s).draws = s.draws := by
  unfold ringEnqueue; dsimp only; split <;> rfl
@[simp] theorem ringEnqueue_caller (D : Bytes) (s : State) : (ringEnqueue D s).caller = s.caller := by
  unfold ringEnqueue; dsimp only; split <;> rfl
@[simp] theorem ringEnqueue_freeCount (D : Bytes) (s : State) : (ringEnqueue D s).freeCount = s.freeCount := by
  unfold ringEnqueue; dsimp only; split <;> rfl

/-- The event of a truncating enqueue (R131). -/
theorem ringEnqueue_events (D : Bytes) (s : State) :
    (ringEnqueue D s).events =
      if enqueueCount D s < D.length then
        s.events ++ [.logTruncate (word16 D.length) (word16 (enqueueCount D s))]
      else s.events := by
  unfold ringEnqueue; dsimp only; split <;> rfl

/-! ### drawn -/

@[simp] theorem drawn_cfg (s : State) : (drawn s).cfg = s.cfg := by
  unfold drawn; split <;> rfl
@[simp] theorem drawn_buf (s : State) : (drawn s).buf = s.buf := by
  unfold drawn; split <;> rfl
@[simp] theorem drawn_head (s : State) : (drawn s).head = s.head := by
  unfold drawn; split <;> rfl
@[simp] theorem drawn_tail (s : State) : (drawn s).tail = s.tail := by
  unfold drawn; split <;> rfl
@[simp] theorem drawn_version (s : State) : (drawn s).version = s.version := by
  unfold drawn; split <;> rfl
@[simp] theorem drawn_initialized (s : State) : (drawn s).initialized = s.initialized := by
  unfold drawn; split <;> rfl
@[simp] theorem drawn_running (s : State) : (drawn s).running = s.running := by
  unfold drawn; split <;> rfl
@[simp] theorem drawn_derrPending (s : State) : (drawn s).derrPending = s.derrPending := by
  unfold drawn; split <;> rfl
@[simp] theorem drawn_derrCode (s : State) : (drawn s).derrCode = s.derrCode := by
  unfold drawn; split <;> rfl
@[simp] theorem drawn_ringLock (s : State) : (drawn s).ringLock = s.ringLock := by
  unfold drawn; split <;> rfl
@[simp] theorem drawn_sendLock (s : State) : (drawn s).sendLock = s.sendLock := by
  unfold drawn; split <;> rfl
@[simp] theorem drawn_scan (s : State) : (drawn s).scan = s.scan := by
  unfold drawn; split <;> rfl
@[simp] theorem drawn_rxFrame (s : State) : (drawn s).rxFrame = s.rxFrame := by
  unfold drawn; split <;> rfl
@[simp] theorem drawn_txbuf (s : State) : (drawn s).txbuf = s.txbuf := by
  unfold drawn; split <;> rfl
@[simp] theorem drawn_sink (s : State) : (drawn s).sink = s.sink := by
  unfold drawn; split <;> rfl
@[simp] theorem drawn_events (s : State) : (drawn s).events = s.events := by
  unfold drawn; split <;> rfl
@[simp] theorem drawn_responses (s : State) : (drawn s).responses = s.responses := by
  unfold drawn; split <;> rfl
@[simp] theorem drawn_inputs (s : State) : (drawn s).inputs = s.inputs := by
  unfold drawn; split <;> rfl
@[simp] theorem drawn_caller (s : State) : (drawn s).caller = s.caller := by
  unfold drawn; split <;> rfl
@[simp] theorem drawn_freeCount (s : State) : (drawn s).freeCount = s.freeCount := by
  unfold drawn; split <;> rfl

/-! ### raiseDerr -/

@[simp] theorem raiseDerr_cfg (c : Byte) (s : State) : (raiseDerr c s).cfg = s.cfg := by
  unfold raiseDerr; split <;> rfl
@[simp] theorem raiseDerr_buf (c : Byte) (s : State) : (raiseDerr c s).buf = s.buf := by
  unfold raiseDerr; split <;> rfl
@[simp] theorem raiseDerr_head (c : Byte) (s : State) : (raiseDerr c s).head = s.head := by
  unfold raiseDerr; split <;> rfl
@[simp] theorem raiseDerr_tail (c : Byte) (s : State) : (raiseDerr c s).tail = s.tail := by
  unfold raiseDerr; split <;> rfl
@[simp] theorem raiseDerr_version (c : Byte) (s : State) : (raiseDerr c s).version = s.version := by
  unfold raiseDerr; split <;> rfl
@[simp] theorem raiseDerr_initialized (c : Byte) (s : State) : (raiseDerr c s).initialized = s.initialized := by
  unfold raiseDerr; split <;> rfl
@[simp] theorem raiseDerr_running (c : Byte) (s : State) : (raiseDerr c s).running = s.running := by
  unfold raiseDerr; split <;> rfl
@[simp] theorem raiseDerr_ringLock (c : Byte) (s : State) : (raiseDerr c s).ringLock = s.ringLock := by
  unfold raiseDerr; split <;> rfl
@[simp] theorem raiseDerr_sendLock (c : Byte) (s : State) : (raiseDerr c s).sendLock = s.sendLock := by
  unfold raiseDerr; split <;> rfl
@[simp] theorem raiseDerr_scan (c : Byte) (s : State) : (raiseDerr c s).scan = s.scan := by
  unfold raiseDerr; split <;> rfl
@[simp] theorem raiseDerr_rxFrame (c : Byte) (s : State) : (raiseDerr c s).rxFrame = s.rxFrame := by
  unfold raiseDerr; split <;> rfl
@[simp] theorem raiseDerr_txbuf (c : Byte) (s : State) : (raiseDerr c s).txbuf = s.txbuf := by
  unfold raiseDerr; split <;> rfl
@[simp] theorem raiseDerr_sink (c : Byte) (s : State) : (raiseDerr c s).sink = s.sink := by
  unfold raiseDerr; split <;> rfl
@[simp] theorem raiseDerr_events (c : Byte) (s : State) : (raiseDerr c s).events = s.events := by
  unfold raiseDerr; split <;> rfl
@[simp] theorem raiseDerr_responses (c : Byte) (s : State) : (raiseDerr c s).responses = s.responses := by
  unfold raiseDerr; split <;> rfl
@[simp] theorem raiseDerr_inputs (c : Byte) (s : State) : (raiseDerr c s).inputs = s.inputs := by
  unfold raiseDerr; split <;> rfl
@[simp] theorem raiseDerr_draws (c : Byte) (s : State) : (raiseDerr c s).draws = s.draws := by
  unfold raiseDerr; split <;> rfl
@[simp] theorem raiseDerr_caller (c : Byte) (s : State) : (raiseDerr c s).caller = s.caller := by
  unfold raiseDerr; split <;> rfl
@[simp] theorem raiseDerr_freeCount (c : Byte) (s : State) : (raiseDerr c s).freeCount = s.freeCount := by
  unfold raiseDerr; split <;> rfl

end Sys2Proof.Machine
end

