-- ==== Sys2Proof/Laws/Locks.lean ====
section
/-! SUPPORT. What one acquisition of a lock can do, said once. -/

namespace Sys2Proof.Machine

/-- The acquisition fails: nothing but the draw, then the busy answer. -/
theorem withRingLock_busy {busy body : State → State} {s : State} (h : lockFails s) :
    withRingLock busy body s = busy (drawn s) := by
  simp [withRingLock, show lockFail s = true from h]

/-- The acquisition succeeds: the body runs under the lock, which is free again after it. -/
theorem withRingLock_ready {busy body : State → State} {s : State} (h : ringReady s) :
    withRingLock busy body s = setRingLock .free (body (setRingLock .held (drawn s))) := by
  simp [withRingLock, h.1, h.2]

theorem withSendLock_busy {busy body : State → State} {s : State} (h : lockFails s) :
    withSendLock busy body s = busy (drawn s) := by
  simp [withSendLock, show lockFail s = true from h]

theorem withSendLock_ready {busy body : State → State} {s : State} (h : sendReady s) :
    withSendLock busy body s = setSendLock .free (body (setSendLock .held (drawn s))) := by
  simp [withSendLock, h.1, h.2]

/-- With the lock free, an acquisition either fails or succeeds. -/
theorem ringReady_or_fails {s : State} (h : s.ringLock = .free) : ringReady s ∨ lockFails s := by
  cases hf : lockFail s
  · exact .inl ⟨hf, h⟩
  · exact .inr hf

theorem sendReady_or_fails {s : State} (h : s.sendLock = .free) : sendReady s ∨ lockFails s := by
  cases hf : lockFail s
  · exact .inl ⟨hf, h⟩
  · exact .inr hf

/-- No acquisition fails under NEVER (20_memory.md R68). -/
theorem lockFail_never {s : State} (h : s.cfg.lockFailMode = .never) : lockFail s = false := by
  simp [lockFail, h]

/-- Under NEVER no draw is taken. -/
theorem drawn_never {s : State} (h : s.cfg.lockFailMode = .never) : drawn s = s := by
  simp [drawn, h]

/-- A failing draw is one of LOCK_FAIL_MODE = ANY. -/
theorem lockFails_any {s : State} (h : lockFails s) : s.cfg.lockFailMode = .any := by
  unfold lockFails lockFail at h
  split at h
  · simp at h
  · assumption

theorem drawn_any {s : State} (h : s.cfg.lockFailMode = .any) : drawn s = { s with draws := s.draws.tail } := by
  simp [drawn, h]

end Sys2Proof.Machine
end

