-- ==== Sys2Proof/Laws/Memory.lean ====
section
/-! SUPPORT. Storage: read after write, the frame of a write, and that every write keeps the canonical form. -/

namespace Sys2Proof.Machine

@[simp] theorem Memory.find_nil (k : Nat) : Memory.find [] k = none := rfl

theorem Memory.find_cons (a : Nat) (b : Byte) (m : Memory) (k : Nat) :
    Memory.find ((a, b) :: m) k = if a = k then some b else Memory.find m k := rfl

theorem Memory.write_cons (a : Nat) (v : Byte) (m : Memory) (k : Nat) (b : Byte) :
    Memory.write ((a, v) :: m) k b =
      if k < a then (k, b) :: (a, v) :: m
      else if k = a then (k, b) :: m
      else (a, v) :: Memory.write m k b := rfl

theorem Memory.find_write (m : Memory) (k j : Nat) (b : Byte) :
    (m.write k b).find j = if j = k then some b else m.find j := by
  induction m with
  | nil => simp only [Memory.write, Memory.find, eq_comm]
  | cons c m ih =>
    obtain ⟨a, v⟩ := c
    rw [Memory.write_cons]
    split
    · simp only [Memory.find_cons, eq_comm]
    · split
      · rename_i hk
        subst hk
        by_cases h : k = j
        · simp [Memory.find_cons, h]
        · simp [Memory.find_cons, h, Ne.symm h]
      · rename_i hk
        rw [Memory.find_cons, Memory.find_cons, ih]
        by_cases h : a = j
        · subst h; simp [Ne.symm hk]
        · simp [h]

@[simp] theorem Memory.find_write_same (m : Memory) (k : Nat) (b : Byte) : (m.write k b).find k = some b := by
  simp [Memory.find_write]

theorem Memory.find_write_of_ne {m : Memory} {k j : Nat} {b : Byte} (h : j ≠ k) : (m.write k b).find j = m.find j := by
  simp [Memory.find_write, h]

theorem Memory.mem_write {m : Memory} {k : Nat} {b : Byte} {c : Host.Cell} (h : c ∈ m.write k b) : c.1 = k ∨ c ∈ m := by
  induction m with
  | nil => simp only [Memory.write, List.mem_singleton] at h; simp [h]
  | cons d m ih =>
    obtain ⟨a, v⟩ := d
    rw [Memory.write_cons] at h
    split at h
    · rcases List.mem_cons.1 h with rfl | h
      · simp
      · exact .inr h
    · split at h
      · rcases List.mem_cons.1 h with rfl | h
        · simp
        · exact .inr (List.mem_cons_of_mem _ h)
      · rcases List.mem_cons.1 h with rfl | h
        · simp
        · rcases ih h with h | h
          · exact .inl h
          · exact .inr (List.mem_cons_of_mem _ h)

theorem Memory.wf_cons {a : Nat} {b : Byte} {m : Memory} :
    Memory.wf ((a, b) :: m) ↔ (∀ c ∈ m, a < c.1) ∧ m.wf := by
  simp [Memory.wf]

theorem Memory.write_wf {m : Memory} (h : m.wf) (k : Nat) (b : Byte) : (m.write k b).wf := by
  induction m with
  | nil => simp [Memory.write, Memory.wf]
  | cons c m ih =>
    obtain ⟨a, v⟩ := c
    obtain ⟨ha, hm⟩ := Memory.wf_cons.1 h
    rw [Memory.write_cons]
    split
    · rename_i hk
      refine Memory.wf_cons.2 ⟨fun c hc => ?_, h⟩
      rcases List.mem_cons.1 hc with rfl | hc
      · exact hk
      · exact hk.trans (ha c hc)
    · split
      · rename_i hk
        exact Memory.wf_cons.2 ⟨fun c hc => hk ▸ ha c hc, hm⟩
      · refine Memory.wf_cons.2 ⟨fun c hc => ?_, ih hm⟩
        rcases Memory.mem_write hc with hc | hc
        · omega
        · exact ha c hc

theorem Memory.write_within {n : Nat} {m : Memory} (h : m.within n) {k : Nat} (hk : k < n) (b : Byte) :
    (m.write k b).within n := by
  intro c hc
  rcases Memory.mem_write hc with hc | hc
  · omega
  · exact h c hc

theorem Memory.writeAll_wf {c : Nat} {m : Memory} (h : m.wf) (k : Nat) (D : Bytes) : (Memory.writeAll c m k D).wf := by
  induction D generalizing m k with
  | nil => exact h
  | cons b D ih => exact ih (Memory.write_wf h _ b) (k + 1)

theorem Memory.writeAll_within {c : Nat} (hc : 0 < c) {m : Memory} (h : m.within c) (k : Nat) (D : Bytes) :
    (Memory.writeAll c m k D).within c := by
  induction D generalizing m k with
  | nil => exact h
  | cons b D ih => exact ih (Memory.write_within h (Nat.mod_lt _ hc) b) (k + 1)

/-- A slot none of the bytes goes to keeps its value. -/
theorem Memory.find_writeAll_of_ne {c : Nat} {m : Memory} {k i : Nat} {D : Bytes}
    (h : ∀ j < D.length, i ≠ (k + j) % c) : (Memory.writeAll c m k D).find i = m.find i := by
  induction D generalizing m k with
  | nil => rfl
  | cons b D ih =>
    have h0 := h 0 (by simp)
    rw [Memory.writeAll, ih (fun j hj => ?_), Memory.find_write_of_ne (by simpa using h0)]
    have := h (j + 1) (by simpa using hj)
    rwa [show k + 1 + j = k + (j + 1) by omega]

/-- Byte j of a string no longer than the storage is read back from its slot. -/
theorem Memory.find_writeAll {c : Nat} {m : Memory} {k j : Nat} {D : Bytes} (hD : D.length ≤ c)
    (hj : j < D.length) : (Memory.writeAll c m k D).find ((k + j) % c) = some D[j] := by
  induction D generalizing m k j with
  | nil => simp at hj
  | cons b D ih =>
    rw [Memory.writeAll]
    cases j with
    | zero =>
      rw [Memory.find_writeAll_of_ne]
      · simp
      · intro i hi heq
        simp only [List.length_cons] at hD
        have h1 : (k + 0) % c = (k + (i + 1)) % c := by rw [heq]; congr 1; omega
        have h2 : (i + 1) % c = 0 % c := Nat.ModEq.add_left_cancel' k h1.symm
        rw [Nat.mod_eq_of_lt (by omega), Nat.zero_mod] at h2
        omega
    | succ j =>
      have hj' : j < D.length := by simpa using hj
      have := ih (m := m.write (k % c) b) (k := k + 1) (j := j) (by simp at hD; omega) hj'
      rw [show k + 1 + j = k + (j + 1) by omega] at this
      simpa using this

theorem Memory.read_eq_of_find_eq {m m' : Memory} {k : Nat} (h : m.find k = m'.find k) : m.read k = m'.read k := by
  simp [Memory.read, h]

@[simp] theorem Memory.readAll_length (c : Nat) (m : Memory) (k n : Nat) : (Memory.readAll c m k n).length = n := by
  simp [Memory.readAll]

@[simp] theorem Memory.readAll_zero (c : Nat) (m : Memory) (k : Nat) : Memory.readAll c m k 0 = [] := rfl

theorem Memory.readAll_getElem {c : Nat} {m : Memory} {k n j : Nat} (h : j < (Memory.readAll c m k n).length) :
    (Memory.readAll c m k n)[j] = m.read ((k + j) % c) := by
  simp [Memory.readAll]

theorem Memory.readAll_take (c : Nat) (m : Memory) (k n a : Nat) :
    (Memory.readAll c m k n).take a = Memory.readAll c m k (min a n) := by
  apply List.ext_getElem
  · simp
  · intro j h1 h2
    simp [Memory.readAll]

theorem Memory.readAll_drop (c : Nat) (m : Memory) (k n a : Nat) :
    (Memory.readAll c m k n).drop a = Memory.readAll c m (k + a) (n - a) := by
  apply List.ext_getElem
  · simp
  · intro j h1 h2
    simp [Memory.readAll, Nat.add_assoc]

/-- A transfer may start at any index congruent to its first slot (R62). -/
theorem Memory.readAll_mod (c : Nat) (m : Memory) (k n : Nat) : Memory.readAll c m (k % c) n = Memory.readAll c m k n := by
  simp [Memory.readAll]

/-- Storage is canonical after reset, under every configuration. -/
theorem resetWith_wf (p : Params) : (State.resetWith p).buf.wf ∧ (State.resetWith p).txbuf.wf :=
  ⟨List.Pairwise.nil, List.Pairwise.nil⟩

/-- Nothing is listed in `State.reset`. -/
theorem reset_wf : State.reset.buf.wf ∧ State.reset.txbuf.wf := resetWith_wf .k1

end Sys2Proof.Machine
end

