-- ==== Sys2Proof/Laws/Ring.lean ====
section
/-! SUPPORT. The byte ring: what each shared operation does to the stored bytes, and that it keeps `RingOk`. -/

namespace Sys2Proof.Machine

/-! ### Configuration -/

theorem two_le_C {p : Params} (h : legal p = true) : 2 ≤ p.C := by
  simp only [legal, Bool.and_eq_true, decide_eq_true_eq] at h
  exact h.1.1.1.1.1.1.1.1.1

/-- The numeric bounds of 00_scope.md R8. -/
theorem legal_bounds {p : Params} (h : legal p = true) :
    2 ≤ p.C ∧ p.C < 65536 ∧ 1 ≤ p.minLen ∧ p.minLen ≤ p.maxLen ∧ p.maxLen ≤ p.C - 1 ∧ p.minLen ≤ p.txLen := by
  simp only [legal, Bool.and_eq_true, decide_eq_true_eq] at h
  obtain ⟨⟨⟨⟨⟨⟨⟨⟨⟨h1, h2⟩, h3⟩, h4⟩, h5⟩, -⟩, -⟩, -⟩, -⟩, -⟩ := h
  exact ⟨h1, p.capacity.isLt, h2, h3, h4, h5⟩

/-- A CRC16 block has FRAME_MIN ≤ 5 (00_scope.md R8, 42_crc16.md R217). -/
theorem legal_crc {p : Params} (h : legal p = true) (hc : p.codec = .crc16) : p.minLen ≤ 5 := by
  simp only [legal, Bool.and_eq_true, Bool.or_eq_true, decide_eq_true_eq] at h
  exact h.2.resolve_left (by simp [hc])

/-- A SLIP block scans for SLIP_END (00_scope.md R8). -/
theorem legal_slip {p : Params} (h : legal p = true) (hc : p.codec = .slip) : p.sync = slipEnd := by
  simp only [legal, Bool.and_eq_true, Bool.or_eq_true, decide_eq_true_eq] at h
  exact h.1.2.resolve_left (by simp [hc])

/-- The four SLIP codes are pairwise distinct (00_scope.md R8). -/
theorem legal_codes {p : Params} (h : legal p = true) :
    p.slipEscEnd ≠ slipEnd ∧ p.slipEscEnd ≠ slipEsc ∧ p.slipEscEsc ≠ slipEnd ∧ p.slipEscEsc ≠ slipEsc ∧
      p.slipEscEnd ≠ p.slipEscEsc := by
  simp only [legal, Bool.and_eq_true, decide_eq_true_eq] at h
  have h := h.1.1.2
  simp only [List.nodup_cons, List.mem_cons, List.not_mem_nil, or_false, not_or] at h
  exact ⟨fun e => h.1.2.1 e.symm, fun e => h.2.1.1 e.symm, fun e => h.1.2.2 e.symm, fun e => h.2.1.2 e.symm, h.2.2.1⟩

theorem word16_toNat {n : Nat} (h : n < 65536) : (word16 n).toNat = n := by
  simp [word16, Nat.mod_eq_of_lt h]

/-- An index reduced modulo C fits 16 bits. -/
theorem word16_mod_toNat {p : Params} (h : 2 ≤ p.C) (n : Nat) : (word16 (n % p.C)).toNat = n % p.C :=
  word16_toNat (Nat.lt_trans (Nat.mod_lt _ (by omega)) p.capacity.isLt)

/-! ### Sizes -/

theorem dataSize_lt {s : State} (h : 2 ≤ s.cfg.C) : dataSize s < s.cfg.C := Nat.mod_lt _ (by omega)

/-- data_size() read off two indices below C. -/
theorem dataSize_eq {s : State} (_ : s.head.toNat < s.cfg.C) (ht : s.tail.toNat < s.cfg.C) :
    dataSize s = if s.head.toNat ≤ s.tail.toNat then s.tail.toNat - s.head.toNat
      else s.tail.toNat + s.cfg.C - s.head.toNat := by
  unfold dataSize
  split
  · rw [show s.tail.toNat + s.cfg.C - s.head.toNat = (s.tail.toNat - s.head.toNat) + s.cfg.C by omega,
      Nat.add_mod_right, Nat.mod_eq_of_lt (by omega)]
  · exact Nat.mod_eq_of_lt (by omega)

/-- The slot data_size() places after head is tail's. -/
theorem head_add_dataSize {s : State} (h : RingOk s) : (s.head.toNat + dataSize s) % s.cfg.C = s.tail.toNat := by
  have hh := h.head_lt
  have ht := h.tail_lt
  rw [dataSize_eq hh ht]
  split
  · rw [show s.head.toNat + (s.tail.toNat - s.head.toNat) = s.tail.toNat by omega, Nat.mod_eq_of_lt ht]
  · rw [show s.head.toNat + (s.tail.toNat + s.cfg.C - s.head.toNat) = s.tail.toNat + s.cfg.C by omega,
      Nat.add_mod_right, Nat.mod_eq_of_lt ht]

theorem takeCount_le (n : Nat) (s : State) : takeCount n s ≤ dataSize s := Nat.min_le_right _ _

theorem enqueueCount_le_length (D : Bytes) (s : State) : enqueueCount D s ≤ D.length := Nat.min_le_left _ _

theorem enqueueCount_le (D : Bytes) (s : State) : enqueueCount D s ≤ remainingSize s := Nat.min_le_right _ _

/-- Two indices fewer than C apart, the same modulo C, are equal. -/
theorem add_mod_inj {c k i j : Nat} (hi : i < c) (hj : j < c) (h : (k + i) % c = (k + j) % c) : i = j := by
  have h2 : i % c = j % c := Nat.ModEq.add_left_cancel' k h
  rwa [Nat.mod_eq_of_lt hi, Nat.mod_eq_of_lt hj] at h2

/-! ### The stored bytes -/

@[simp] theorem stored_length (s : State) : (stored s).length = dataSize s := by
  simp [stored, ringPeek, takeCount]

theorem stored_eq (s : State) : stored s = Memory.readAll s.cfg.C s.buf s.head.toNat (dataSize s) := by
  simp [stored, ringPeek, takeCount]

/-- ring_peek(n) returns the first min(n, data_size()) stored bytes (R132). -/
theorem ringPeek_eq (n : Nat) (s : State) : ringPeek n s = (stored s).take n := by
  rw [stored_eq, Memory.readAll_take]; rfl

@[simp] theorem ringPeek_length (n : Nat) (s : State) : (ringPeek n s).length = takeCount n s := by
  simp [ringPeek]

/-- Two states with the same ring hold the same bytes. -/
theorem stored_congr {s t : State} (hc : t.cfg = s.cfg) (hb : t.buf = s.buf) (hh : t.head = s.head) (ht : t.tail = s.tail) :
    stored t = stored s := by
  simp [stored_eq, dataSize, hc, hb, hh, ht]

theorem RingOk.congr {s t : State} (h : RingOk s) (hc : t.cfg = s.cfg) (hb : t.buf = s.buf) (hh : t.head = s.head)
    (ht : t.tail = s.tail) : RingOk t := by
  have hd : dataSize t = dataSize s := by simp [dataSize, hc, hh, ht]
  exact ⟨by rw [hh, hc]; exact h.head_lt, by rw [ht, hc]; exact h.tail_lt, by rw [hb]; exact h.buf_wf,
    by rw [hb, hc]; exact h.buf_in, by rw [hd, hh, hc, hb]; exact h.written⟩

/-! ### Discard -/

theorem dataSize_ringDiscard {s : State} (hC : 2 ≤ s.cfg.C) (h : RingOk s) (n : Nat) :
    dataSize (ringDiscard n s) = dataSize s - takeCount n s := by
  have hh := h.head_lt
  have ht := h.tail_lt
  have ha := takeCount_le n s
  have hd := dataSize_lt hC
  have hd' := dataSize_eq hh ht
  have hm : ((s.head.toNat + takeCount n s) % s.cfg.C) < s.cfg.C := Nat.mod_lt _ (by omega)
  rw [dataSize_eq (by simpa [word16_mod_toNat hC] using hm) (by simpa using ht)]
  simp only [ringDiscard_head, ringDiscard_tail, ringDiscard_cfg, word16_mod_toNat hC]
  have hcase : (s.head.toNat + takeCount n s) % s.cfg.C =
      if s.head.toNat + takeCount n s < s.cfg.C then s.head.toNat + takeCount n s
      else s.head.toNat + takeCount n s - s.cfg.C := by
    split
    · exact Nat.mod_eq_of_lt ‹_›
    · rw [Nat.mod_eq_sub_mod (by omega), Nat.mod_eq_of_lt (by omega)]
  rw [hcase]
  split at hd' <;> split <;> split <;> omega

/-- ring_discard(n) removes the first min(n, data_size()) stored bytes (R133). -/
theorem stored_ringDiscard {s : State} (hC : 2 ≤ s.cfg.C) (h : RingOk s) (n : Nat) :
    stored (ringDiscard n s) = (stored s).drop n := by
  rw [stored_eq, stored_eq, dataSize_ringDiscard hC h, Memory.readAll_drop]
  simp only [ringDiscard_head, ringDiscard_buf, ringDiscard_cfg, word16_mod_toNat hC]
  rw [Memory.readAll_mod]
  have : takeCount n s = min n (dataSize s) := rfl
  rcases Nat.le_total n (dataSize s) with hn | hn
  · rw [this, Nat.min_eq_left hn]
  · rw [this, Nat.min_eq_right hn, Nat.sub_self, Nat.sub_eq_zero_of_le hn, Memory.readAll_zero, Memory.readAll_zero]

theorem RingOk.ringDiscard {s : State} (hC : 2 ≤ s.cfg.C) (h : RingOk s) (n : Nat) : RingOk (ringDiscard n s) := by
  refine ⟨?_, h.tail_lt, h.buf_wf, h.buf_in, fun k hk => ?_⟩
  · simpa [word16_mod_toNat hC] using Nat.mod_lt _ (by omega)
  · rw [dataSize_ringDiscard hC h] at hk
    have := h.written (takeCount n s + k) (by omega)
    simpa [word16_mod_toNat hC, Nat.add_assoc] using this

/-! ### Enqueue -/

theorem dataSize_ringStore {s : State} (hC : 2 ≤ s.cfg.C) (h : RingOk s) (D : Bytes) {a : Nat} (ha : a ≤ remainingSize s) :
    dataSize (ringStore D a s) = dataSize s + a := by
  have hh := h.head_lt
  have ht := h.tail_lt
  have hd := dataSize_lt hC
  have hd' := dataSize_eq hh ht
  unfold remainingSize at ha
  have hm : ((s.tail.toNat + a) % s.cfg.C) < s.cfg.C := Nat.mod_lt _ (by omega)
  rw [dataSize_eq (by simpa using hh) (by simpa [word16_mod_toNat hC] using hm)]
  simp only [ringStore_head, ringStore_tail, ringStore_cfg, word16_mod_toNat hC]
  have hcase : (s.tail.toNat + a) % s.cfg.C =
      if s.tail.toNat + a < s.cfg.C then s.tail.toNat + a else s.tail.toNat + a - s.cfg.C := by
    split
    · exact Nat.mod_eq_of_lt ‹_›
    · rw [Nat.mod_eq_sub_mod (by omega), Nat.mod_eq_of_lt (by omega)]
  rw [hcase]
  split at hd' <;> split <;> split <;> omega

/-- The k-th slot after head, below data_size(), is none of the slots an enqueue writes. -/
theorem stored_slot_ne {s : State} (hC : 2 ≤ s.cfg.C) (h : RingOk s) {a k j : Nat} (ha : a ≤ remainingSize s)
    (hk : k < dataSize s) (hj : j < a) : (s.head.toNat + k) % s.cfg.C ≠ (s.tail.toNat + j) % s.cfg.C := by
  intro heq
  have hd := dataSize_lt hC
  unfold remainingSize at ha
  rw [← head_add_dataSize h, Nat.mod_add_mod, Nat.add_assoc] at heq
  have := add_mod_inj (by omega) (by omega) heq
  omega

theorem stored_ringStore {s : State} (hC : 2 ≤ s.cfg.C) (h : RingOk s) {D : Bytes} {a : Nat} (hD : a ≤ D.length)
    (ha : a ≤ remainingSize s) : stored (ringStore D a s) = stored s ++ D.take a := by
  have hd := dataSize_lt hC
  have ha' := ha
  unfold remainingSize at ha'
  apply List.ext_getElem
  · simp [dataSize_ringStore hC h D ha, Nat.min_eq_left hD]
  · intro k h1 h2
    simp only [stored_eq] at h1 ⊢
    rw [Memory.readAll_getElem]
    simp only [ringStore_buf, ringStore_head, ringStore_cfg]
    rw [List.getElem_append]
    split
    · rename_i hk
      rw [Memory.readAll_getElem]
      apply Memory.read_eq_of_find_eq
      apply Memory.find_writeAll_of_ne
      intro j hj
      exact stored_slot_ne hC h ha (by simpa using hk) (by simp at hj; omega)
    · rename_i hk
      simp only [Memory.readAll_length, Nat.not_lt] at hk
      rw [Memory.readAll_length, dataSize_ringStore hC h D ha] at h1
      have hslot : (s.head.toNat + k) % s.cfg.C = (s.tail.toNat + (k - dataSize s)) % s.cfg.C := by
        rw [← head_add_dataSize h, Nat.mod_add_mod]; congr 1; omega
      rw [hslot, Memory.read, Memory.find_writeAll (by simp; omega) (by simp; omega)]
      simp

theorem RingOk.ringStore {s : State} (hC : 2 ≤ s.cfg.C) (h : RingOk s) {D : Bytes} {a : Nat} (hD : a ≤ D.length)
    (ha : a ≤ remainingSize s) : RingOk (ringStore D a s) := by
  have hd := dataSize_lt hC
  have ha' := ha
  unfold remainingSize at ha'
  refine ⟨h.head_lt, ?_, Memory.writeAll_wf h.buf_wf _ _, Memory.writeAll_within (by omega) h.buf_in _ _, fun k hk => ?_⟩
  · simpa [word16_mod_toNat hC] using Nat.mod_lt _ (by omega)
  · rw [dataSize_ringStore hC h D ha] at hk
    simp only [ringStore_head, ringStore_buf, ringStore_cfg]
    by_cases hlt : k < dataSize s
    · rw [Memory.find_writeAll_of_ne]
      · exact h.written k hlt
      · intro j hj
        exact stored_slot_ne hC h ha hlt (by simp at hj; omega)
    · have hslot : (s.head.toNat + k) % s.cfg.C = (s.tail.toNat + (k - dataSize s)) % s.cfg.C := by
        rw [← head_add_dataSize h, Nat.mod_add_mod]; congr 1; omega
      rw [hslot, Memory.find_writeAll (by simp; omega) (by simp; omega)]
      rfl

/-- ring_enqueue(D) appends the accepted bytes (R131). -/
theorem stored_ringEnqueue {s : State} (hC : 2 ≤ s.cfg.C) (h : RingOk s) (D : Bytes) :
    stored (ringEnqueue D s) = stored s ++ D.take (enqueueCount D s) := by
  rw [← stored_ringStore hC h (enqueueCount_le_length D s) (enqueueCount_le D s)]
  exact stored_congr (by simp) (by simp) (by simp) (by simp)

theorem RingOk.ringEnqueue {s : State} (hC : 2 ≤ s.cfg.C) (h : RingOk s) (D : Bytes) : RingOk (ringEnqueue D s) :=
  (h.ringStore hC (D := D) (enqueueCount_le_length D s) (enqueueCount_le D s)).congr (by simp) (by simp) (by simp) (by simp)

end Sys2Proof.Machine
end

