-- ==== Sys2Proof/Laws/Poll.lean ====
section
/-! SUPPORT. The scanner: what its local scan finds, and what each way of going on can do. -/

namespace Sys2Proof.Machine

/-- A match stands in the window at its index, with a frame that fits behind it (R180, R181). -/
theorem nextMatch_some {p : Params} {X : Bytes} {i j : Nat} (h : nextMatch p i X = some j) :
    i ≤ j ∧ j < i + X.length ∧ ∃ L F, unpack p (X.drop (j - i)) = some (L, F) ∧ 1 ≤ L ∧ L ≤ X.length - (j - i) := by
  induction X generalizing i with
  | nil => simp [nextMatch] at h
  | cons b bs ih =>
    have skip : nextMatch p (i + 1) bs = some j → i ≤ j ∧ j < i + (b :: bs).length ∧
        ∃ L F, unpack p ((b :: bs).drop (j - i)) = some (L, F) ∧ 1 ≤ L ∧ L ≤ (b :: bs).length - (j - i) := by
      intro h
      obtain ⟨h1, h2, L, F, h3, h4, h5⟩ := ih h
      refine ⟨by omega, by simp; omega, L, F, ?_, h4, by simp; omega⟩
      rw [show j - i = (j - (i + 1)) + 1 by omega]
      simpa using h3
    rw [nextMatch] at h
    split at h
    · exact skip h
    · split at h
      · cases h
      · split at h
        · exact skip h
        · rename_i L F hu
          split at h
          · exact skip h
          · rename_i hL
            cases h
            simp only [not_or, Nat.not_lt] at hL
            exact ⟨by omega, by simp, L, F, by simpa using hu, by omega, by simpa using hL.2⟩

/-- Where no sync position yields a frame the scan finds nothing (R310). -/
theorem nextMatch_none {p : Params} {X : Bytes} {i : Nat}
    (h : ∀ k, k < X.length → X.getD k 0 = p.sync → unpack p (X.drop k) = none) : nextMatch p i X = none := by
  induction X generalizing i with
  | nil => rfl
  | cons b bs ih =>
    have ih' : ∀ {i : Nat}, nextMatch p i bs = none := ih fun k hk hs => by
      simpa using h (k + 1) (by simpa using hk) (by simpa using hs)
    rw [nextMatch]
    split
    · exact ih'
    · rename_i hb
      simp only [ne_eq, Decidable.not_not] at hb
      split
      · rfl
      · rw [show unpack p (b :: bs) = none from by simpa using h 0 (by simp) (by simpa using hb)]
        exact ih'

/-- Going on with the scan changes only `scan`, `responses`, `rxFrame` and `freeCount`: the POLL ends, or P4 is next. -/
theorem pollScan_cases (sc : Scan) (s : State) :
    ∃ f n, ((f = s.rxFrame ∧ n = s.freeCount) ∨ (f = freeFrame s.cfg.codec s.freeCount ∧ n = s.freeCount + 1)) ∧
      ((nextMatch s.cfg sc.pos (sc.window.drop sc.pos) = none ∧
          pollScan sc s = { s with
            rxFrame := f, freeCount := n, scan := none
            responses := s.responses ++
              [{ issuer := sc.issuer, status := .ok, result := word16 sc.count, dout := [] }] }) ∨
        ∃ i, nextMatch s.cfg sc.pos (sc.window.drop sc.pos) = some i ∧
          pollScan sc s = { s with
            rxFrame := f, freeCount := n, scan := some { sc with phase := .frame, pos := i } }) := by
  unfold pollScan
  dsimp only
  by_cases hm : meetsFalsePositive s.cfg (sc.window.drop sc.pos) = true
  · refine ⟨freeFrame s.cfg.codec s.freeCount, s.freeCount + 1, .inr ⟨rfl, rfl⟩, ?_⟩
    simp only [hm, if_true]
    split
    · exact .inr ⟨_, by assumption, rfl⟩
    · exact .inl ⟨by assumption, rfl⟩
  · refine ⟨s.rxFrame, s.freeCount, .inl ⟨rfl, rfl⟩, ?_⟩
    simp only [hm]
    split
    · exact .inr ⟨_, by assumption, rfl⟩
    · exact .inl ⟨by assumption, rfl⟩

/-- The free value of `rxFrame` keeps the limits of a frame (R12). -/
theorem freeFrame_fits (codec : Codec) (n : Nat) : (freeFrame codec n).fits codec := by
  cases codec
  · simp only [freeFrame, Frame.fits, true_and, List.length_take]; omega
  · simp [freeFrame, Frame.fits]

/-- Every byte before the first SYNC is another byte (R177). -/
theorem getD_ne_of_lt_resyncCount {p : Params} {W : Bytes} {j : Nat} (h : j < resyncCount p W) : W.getD j 0 ≠ p.sync := by
  have hj : j < W.length := Nat.lt_of_lt_of_le h List.findIdx_le_length
  have := List.not_of_lt_findIdx h
  rw [List.getD_eq_getElem _ _ hj]
  simpa using this

theorem resyncCount_le (p : Params) (W : Bytes) : resyncCount p W ≤ W.length := List.findIdx_le_length

/-- The byte at that index is SYNC, unless the window has none (R177). -/
theorem getD_resyncCount {p : Params} {W : Bytes} (h : resyncCount p W < W.length) : W.getD (resyncCount p W) 0 = p.sync := by
  have := List.findIdx_getElem (w := h)
  rw [List.getD_eq_getElem _ _ h]
  exact of_decide_eq_true this

end Sys2Proof.Machine
end

