-- ==== Sys2Proof/Laws/Step.lean ====
section
/-! SUPPORT. What one step can do, said once; and how the invariant passes through updates that leave its fields alone. -/

namespace Sys2Proof.Machine

/-- Every way a step answers a next state: a micro-step of the active POLL, RAISE_DERR, an ILLEGAL command, or a decoded command. -/
theorem step_cases {s t : State} (h : step s = .next t) :
    legal s.cfg = true ∧
    ((s.inputs = [] ∧ t = pollTurn s) ∨
     (∃ rest, s.inputs = .pollTurn :: rest ∧ t = pollTurn { s with inputs := rest }) ∨
     (∃ issuer w din rest, s.inputs = .command issuer w din :: rest ∧ waits issuer s = true ∧ t = pollTurn s) ∨
     (∃ code rest, s.inputs = .raiseDerr code :: rest ∧ t = raiseDerr code { s with inputs := rest }) ∨
     (∃ issuer w din rest, s.inputs = .command issuer w din :: rest ∧ waits issuer s = false ∧
       ((∃ e, decode s.cfg.codec w din = .error e ∧
          t = reject .illegalCmd { s with inputs := rest, caller := issuer }) ∨
        ∃ i, decode s.cfg.codec w din = .ok i ∧ exec i { s with inputs := rest, caller := issuer } = .next t))) := by
  unfold step at h
  have hl : legal s.cfg = true := by
    cases hl : legal s.cfg
    · simp [fetch, hl] at h
    · rfl
  refine ⟨hl, ?_⟩
  cases hi : s.inputs with
  | nil => simp only [fetch, hl, hi] at h; cases h; exact .inl ⟨rfl, rfl⟩
  | cons x rest =>
    cases x with
    | pollTurn => simp only [fetch, hl, hi] at h; cases h; exact .inr (.inl ⟨rest, rfl, rfl⟩)
    | raiseDerr code =>
      simp only [fetch, hl, hi] at h; cases h
      exact .inr (.inr (.inr (.inl ⟨code, rest, rfl, rfl⟩)))
    | command issuer w din =>
      cases hw : waits issuer s
      · simp only [fetch, hl, hi, hw, takeCommand] at h
        refine .inr (.inr (.inr (.inr ⟨issuer, w, din, rest, rfl, hw, ?_⟩)))
        cases hd : decode s.cfg.codec w din with
        | error e => simp only [hd] at h; cases h; exact .inl ⟨e, rfl, rfl⟩
        | ok i => simp only [hd] at h; exact .inr ⟨i, rfl, h⟩
      · simp only [fetch, hl, hi, hw] at h; cases h
        exact .inr (.inr (.inl ⟨issuer, w, din, rest, rfl, hw, rfl⟩))

/-- The invariant reads only these fields. -/
theorem State.Inv.congr {s t : State} (h : s.Inv) (hcfg : t.cfg = s.cfg) (hbuf : t.buf = s.buf) (hhead : t.head = s.head)
    (htail : t.tail = s.tail) (hinit : t.initialized = s.initialized) (hrun : t.running = s.running)
    (hring : t.ringLock = s.ringLock) (hsend : t.sendLock = s.sendLock) (hscan : t.scan = s.scan)
    (hrx : t.rxFrame = s.rxFrame) (htx : t.txbuf = s.txbuf) : t.Inv where
  legal := by rw [hcfg]; exact h.legal
  ring := h.ring.congr hcfg hbuf hhead htail
  txbuf_wf := by rw [htx]; exact h.txbuf_wf
  txbuf_in := by rw [htx, hcfg]; exact h.txbuf_in
  ring_free := by rw [hring]; exact h.ring_free
  send_free := by rw [hsend]; exact h.send_free
  running_initialized := by rw [hrun, hinit]; exact h.running_initialized
  rx_fits := by rw [hrx, hcfg]; exact h.rx_fits
  scan_ok := by rw [hscan, hinit, hcfg, hrun]; exact h.scan_ok

end Sys2Proof.Machine
end

