-- ==== Sys2Proof/Laws/Inv.lean ====
section
/-! SUPPORT. How the invariant passes through the shared operations, and what holding ring_lock leaves alone. -/

namespace Sys2Proof.Machine

/-! ### Under ring_lock -/

theorem dataSize_congr {s t : State} (hc : t.cfg = s.cfg) (hh : t.head = s.head) (ht : t.tail = s.tail) :
    dataSize t = dataSize s := by
  simp [dataSize, hc, hh, ht]

@[simp] theorem dataSize_hold (s : State) : dataSize (setRingLock .held (drawn s)) = dataSize s :=
  dataSize_congr (by simp) (by simp) (by simp)

@[simp] theorem stored_hold (s : State) : stored (setRingLock .held (drawn s)) = stored s :=
  stored_congr (by simp) (by simp) (by simp) (by simp)

@[simp] theorem remainingSize_hold (s : State) : remainingSize (setRingLock .held (drawn s)) = remainingSize s := by
  simp [remainingSize]

@[simp] theorem enqueueCount_hold (D : Bytes) (s : State) :
    enqueueCount D (setRingLock .held (drawn s)) = enqueueCount D s := by
  simp [enqueueCount]

@[simp] theorem takeCount_hold (n : Nat) (s : State) : takeCount n (setRingLock .held (drawn s)) = takeCount n s := by
  simp [takeCount]

theorem RingOk.hold {s : State} (h : RingOk s) : RingOk (setRingLock .held (drawn s)) :=
  h.congr (by simp) (by simp) (by simp) (by simp)

/-! ### The invariant -/

theorem State.Inv.two_le {s : State} (h : s.Inv) : 2 ≤ s.cfg.C := two_le_C h.legal

theorem State.Inv.respond {s : State} (h : s.Inv) (st : Status) (r : Word16) (d : Bytes) :
    (Machine.respond st r d s).Inv :=
  h.congr rfl rfl rfl rfl rfl rfl rfl rfl rfl rfl rfl

theorem State.Inv.emit {s : State} (h : s.Inv) (e : Event) : (Machine.emit e s).Inv :=
  h.congr rfl rfl rfl rfl rfl rfl rfl rfl rfl rfl rfl

theorem State.Inv.drawn {s : State} (h : s.Inv) : (Machine.drawn s).Inv := by
  apply h.congr <;> simp

/-- The schedule and the caller are no part of the invariant. -/
theorem State.Inv.taking {s : State} (h : s.Inv) (l : List Input) (c : Nat) : ({ s with inputs := l, caller := c } : State).Inv :=
  h.congr rfl rfl rfl rfl rfl rfl rfl rfl rfl rfl rfl

theorem State.Inv.raiseDerr {s : State} (h : s.Inv) (c : Byte) : (Machine.raiseDerr c s).Inv := by
  apply h.congr <;> simp

theorem State.Inv.pollEnd {s : State} (h : s.Inv) (sc : Scan) (st : Status) (r : Nat) : (Machine.pollEnd sc st r s).Inv where
  legal := h.legal
  ring := h.ring.congr rfl rfl rfl rfl
  txbuf_wf := h.txbuf_wf
  txbuf_in := h.txbuf_in
  ring_free := h.ring_free
  send_free := h.send_free
  running_initialized := h.running_initialized
  rx_fits := h.rx_fits
  scan_ok := by simp

/-- Under ring_lock, the invariant is to be shown for each outcome of the draw. -/
theorem State.Inv.withRingLock {s : State} (h : s.Inv) {busy body : State → State}
    (hb : ∀ t : State, t.Inv → t.scan = s.scan → t.running = s.running → t.initialized = s.initialized → t.cfg = s.cfg →
      (busy t).Inv)
    (hh : ∀ t : State, t.Inv → t.scan = s.scan → t.running = s.running → t.initialized = s.initialized → t.cfg = s.cfg →
      (setRingLock .free (body (setRingLock .held t))).Inv) : (Machine.withRingLock busy body s).Inv := by
  rcases ringReady_or_fails h.ring_free with hr | hr
  · rw [withRingLock_ready hr]
    exact hh _ h.drawn (by simp) (by simp) (by simp) (by simp)
  · rw [withRingLock_busy hr]
    exact hb _ h.drawn (by simp) (by simp) (by simp) (by simp)

/-- A ring in order and everything else of the invariant as before is enough. -/
theorem State.Inv.withRing {s t : State} (h : s.Inv) (hr : RingOk t) (hcfg : t.cfg = s.cfg)
    (hinit : t.initialized = s.initialized) (hrun : t.running = s.running) (hsend : t.sendLock = s.sendLock)
    (hscan : t.scan = s.scan) (hrx : t.rxFrame = s.rxFrame) (htx : t.txbuf = s.txbuf) : (setRingLock .free t).Inv where
  legal := by simpa [hcfg] using h.legal
  ring := hr.congr rfl rfl rfl rfl
  txbuf_wf := by show t.txbuf.wf; rw [htx]; exact h.txbuf_wf
  txbuf_in := by show t.txbuf.within t.cfg.txLen; rw [htx, hcfg]; exact h.txbuf_in
  ring_free := rfl
  send_free := by simpa [hsend] using h.send_free
  running_initialized := by simpa [hrun, hinit] using h.running_initialized
  rx_fits := by simpa [hrx, hcfg] using h.rx_fits
  scan_ok := by simpa [hscan, hinit, hcfg, hrun] using h.scan_ok

/-- Going on with the scan after a micro-step leaves a state in order. -/
theorem pollScan_inv {s : State} {sc : Scan} (legal : legal s.cfg = true) (ring : RingOk s) (txw : s.txbuf.wf)
    (txi : s.txbuf.within s.cfg.txLen) (send : s.sendLock = .free) (ri : s.running = true → s.initialized = true)
    (rx : s.rxFrame.fits s.cfg.codec) (hi : s.initialized = true) (hr : s.running = true)
    (hw : sc.window.length ≤ s.cfg.maxLen) (hb : sc.base ≤ sc.pos) (hc : sc.count ≤ sc.base) :
    (setRingLock .free (pollScan sc s)).Inv := by
  obtain ⟨f, n, hfn, hcase⟩ := pollScan_cases sc s
  have hf : f.fits s.cfg.codec := by
    rcases hfn with ⟨rfl, -⟩ | ⟨rfl, -⟩
    · exact rx
    · exact freeFrame_fits _ _
  rcases hcase with ⟨-, h⟩ | ⟨i, hm, h⟩
  · rw [h]
    refine ⟨legal, ring.congr rfl rfl rfl rfl, txw, txi, rfl, send, ri, hf, ?_⟩
    intro sc' h'; cases h'
  · rw [h]
    refine ⟨legal, ring.congr rfl rfl rfl rfl, txw, txi, rfl, send, ri, hf, ?_⟩
    intro sc' hsc
    cases hsc
    refine ⟨hi, ?_⟩
    obtain ⟨h1, -, L, F, h3, h4, h5⟩ := nextMatch_some hm
    simp only [List.length_drop, List.drop_drop] at h3 h5
    rw [show sc.pos + (i - sc.pos) = i by omega] at h3
    exact ⟨hr, hw, Nat.le_trans hb h1, hc, L, F, h3, h4, by simp; omega⟩

/-- A packed result that goes on fits `txbuf` (41_transport.md R189). -/
theorem boundTx_le (p : Params) (B : Bytes) : (boundTx p B).length ≤ p.txLen := by
  unfold boundTx; split <;> simp_all

end Sys2Proof.Machine
end

