-- ==== Sys2Proof/Laws/PerInstr.lean ====
section
/-! SUPPORT. Facts about every command as syntax, one lemma per constructor of Instr. -/

namespace Sys2Proof

/-- The opcode of a command (30_encoding.md R95). -/
def Instr.opcode : Instr → Opcode
  | .init => .init
  | .poll => .poll
  | .sendCrc _ _ => .send
  | .sendSlip _ => .send
  | .readHook _ => .readHook
  | .regRead _ => .regRead
  | .ringEnqueue _ => .ringEnqueue
  | .ringDequeue _ => .ringDequeue
  | .ringPeek _ => .ringPeek
  | .ringDiscard _ => .ringDiscard
  | .ringRemaining => .ringRemaining
  | .ringDataSize => .ringDataSize
  | .crc16Compute _ => .crc16Compute
  | .crcPack _ _ => .crcPack
  | .crcUnpack _ => .crcUnpack
  | .slipPack _ => .slipPack
  | .slipUnpack _ => .slipUnpack
  | .slipChecksum _ => .slipChecksum

end Sys2Proof

namespace Sys2Proof.Laws.EncodedFields

/-- The fields of a command's word are its opcode, and zero where the command uses no ARG8 or no N; DIN is the command's byte
string, with N its length for a data command, and empty for every other (30_encoding.md R91, R92, R95). -/
def Statement (i : Instr) : Prop :=
  ∀ codec, i.wellFormed codec = true →
    opcodeField (encode i).1 = i.opcode.byte ∧
    (i.opcode.usesArg8 codec = false → arg8Field (encode i).1 = 0) ∧
    (i.opcode.usesCount = false → countField (encode i).1 = 0) ∧
    (encode i).2 = i.din ∧
    (i.opcode.isData = true → (countField (encode i).1).toNat = i.din.length) ∧
    (i.opcode.isData = false → i.din = [])

theorem init : Statement .init := by
  intro codec h
  simp [encode, Instr.opcode, Instr.din, Opcode.usesArg8, Opcode.usesCount, Opcode.isData]

theorem poll : Statement .poll := by
  intro codec h
  simp [encode, Instr.opcode, Instr.din, Opcode.usesArg8, Opcode.usesCount, Opcode.isData]

theorem sendCrc (cmd : Byte) (payload : Bytes) : Statement (.sendCrc cmd payload) := by
  intro codec h
  simp only [Instr.wellFormed, Bool.and_eq_true, decide_eq_true_eq] at h
  have hc := h.2
  simp only [Instr.codecOk, decide_eq_true_eq] at hc
  have hl : (lengthField payload).toNat = payload.length := lengthField_toNat h.1
  simp [encode, Instr.opcode, Instr.din, Opcode.usesArg8, Opcode.usesCount, Opcode.isData, hc, hl]

theorem sendSlip (body : Bytes) : Statement (.sendSlip body) := by
  intro codec h
  simp only [Instr.wellFormed, Bool.and_eq_true, decide_eq_true_eq] at h
  have hc := h.2
  simp only [Instr.codecOk, decide_eq_true_eq] at hc
  have hl : (lengthField body).toNat = body.length := lengthField_toNat h.1
  simp [encode, Instr.opcode, Instr.din, Opcode.usesArg8, Opcode.usesCount, Opcode.isData, hc, hl]

theorem readHook (chunk : Bytes) : Statement (.readHook chunk) := by
  intro codec h
  simp only [Instr.wellFormed, Bool.and_eq_true, decide_eq_true_eq] at h
  have hl : (lengthField chunk).toNat = chunk.length := lengthField_toNat h.1
  simp [encode, Instr.opcode, Instr.din, Opcode.usesArg8, Opcode.usesCount, Opcode.isData, hl]

theorem regRead (r : Reg) : Statement (.regRead r) := by
  intro codec h
  simp [encode, Instr.opcode, Instr.din, Opcode.usesArg8, Opcode.usesCount, Opcode.isData]

theorem ringEnqueue (data : Bytes) : Statement (.ringEnqueue data) := by
  intro codec h
  simp only [Instr.wellFormed, Bool.and_eq_true, decide_eq_true_eq] at h
  have hl : (lengthField data).toNat = data.length := lengthField_toNat h.1
  simp [encode, Instr.opcode, Instr.din, Opcode.usesArg8, Opcode.usesCount, Opcode.isData, hl]

theorem ringDequeue (n : Word16) : Statement (.ringDequeue n) := by
  intro codec h
  simp [encode, Instr.opcode, Instr.din, Opcode.usesArg8, Opcode.usesCount, Opcode.isData]

theorem ringPeek (n : Word16) : Statement (.ringPeek n) := by
  intro codec h
  simp [encode, Instr.opcode, Instr.din, Opcode.usesArg8, Opcode.usesCount, Opcode.isData]

theorem ringDiscard (n : Word16) : Statement (.ringDiscard n) := by
  intro codec h
  simp [encode, Instr.opcode, Instr.din, Opcode.usesArg8, Opcode.usesCount, Opcode.isData]

theorem ringRemaining : Statement .ringRemaining := by
  intro codec h
  simp [encode, Instr.opcode, Instr.din, Opcode.usesArg8, Opcode.usesCount, Opcode.isData]

theorem ringDataSize : Statement .ringDataSize := by
  intro codec h
  simp [encode, Instr.opcode, Instr.din, Opcode.usesArg8, Opcode.usesCount, Opcode.isData]

theorem crc16Compute (data : Bytes) : Statement (.crc16Compute data) := by
  intro codec h
  simp only [Instr.wellFormed, Bool.and_eq_true, decide_eq_true_eq] at h
  have hl : (lengthField data).toNat = data.length := lengthField_toNat h.1
  simp [encode, Instr.opcode, Instr.din, Opcode.usesArg8, Opcode.usesCount, Opcode.isData, hl]

theorem crcPack (cmd : Byte) (payload : Bytes) : Statement (.crcPack cmd payload) := by
  intro codec h
  simp only [Instr.wellFormed, Bool.and_eq_true, decide_eq_true_eq] at h
  have hl : (lengthField payload).toNat = payload.length := lengthField_toNat h.1
  simp [encode, Instr.opcode, Instr.din, Opcode.usesArg8, Opcode.usesCount, Opcode.isData, hl]

theorem crcUnpack (data : Bytes) : Statement (.crcUnpack data) := by
  intro codec h
  simp only [Instr.wellFormed, Bool.and_eq_true, decide_eq_true_eq] at h
  have hl : (lengthField data).toNat = data.length := lengthField_toNat h.1
  simp [encode, Instr.opcode, Instr.din, Opcode.usesArg8, Opcode.usesCount, Opcode.isData, hl]

theorem slipPack (body : Bytes) : Statement (.slipPack body) := by
  intro codec h
  simp only [Instr.wellFormed, Bool.and_eq_true, decide_eq_true_eq] at h
  have hl : (lengthField body).toNat = body.length := lengthField_toNat h.1
  simp [encode, Instr.opcode, Instr.din, Opcode.usesArg8, Opcode.usesCount, Opcode.isData, hl]

theorem slipUnpack (data : Bytes) : Statement (.slipUnpack data) := by
  intro codec h
  simp only [Instr.wellFormed, Bool.and_eq_true, decide_eq_true_eq] at h
  have hl : (lengthField data).toNat = data.length := lengthField_toNat h.1
  simp [encode, Instr.opcode, Instr.din, Opcode.usesArg8, Opcode.usesCount, Opcode.isData, hl]

theorem slipChecksum (data : Bytes) : Statement (.slipChecksum data) := by
  intro codec h
  simp only [Instr.wellFormed, Bool.and_eq_true, decide_eq_true_eq] at h
  have hl : (lengthField data).toNat = data.length := lengthField_toNat h.1
  simp [encode, Instr.opcode, Instr.din, Opcode.usesArg8, Opcode.usesCount, Opcode.isData, hl]

end Sys2Proof.Laws.EncodedFields
end

