-- ==== Sys2Proof/Tests/Slice0.lean ====
section
/-! SUPPORT. Tests with expected values from spec/95_test_vectors.md, and a witness for the hypotheses of every statement. -/

namespace Sys2Proof.Tests

open Sys2Proof Sys2Proof.Machine

/-! ### Configurations and small states -/

/-- Config K1 with LOCK_FAIL_MODE = ANY (95_test_vectors.md section 4). -/
def k1Any : Params := { Params.k1 with lockFailMode := .any }

/-- Config S1 of 95_test_vectors.md. -/
def s1 : Params := { Params.k1 with codec := .slip, sync := 0xC0, frameMin := 4 }

/-- The configuration of program P4. -/
def p4 : Params := { Params.k1 with capacity := 8, frameMin := 1, frameMax := 7 }

/-- The configuration of program P5. -/
def p5 : Params := { Params.k1 with capacity := 16, frameMax := 8 }

/-- Frame A of 95_test_vectors.md. -/
def frameA : Bytes := [0xAA, 0x01, 0x00, 0xF0, 0x85]

/-- Frame B of 95_test_vectors.md. -/
def frameB : Bytes := [0xAA, 0x10, 0x03, 0x01, 0x02, 0x03, 0x8D, 0x97]

/-- A running block with bytes D stored from slot h on. -/
def holding (p : Params) (h : Nat) (D : Bytes) : State :=
  { State.resetWith p with
    buf := Memory.writeAll p.C [] h D
    head := word16 h
    tail := word16 ((h + D.length) % p.C)
    initialized := true
    running := true }

/-- The state after one command of issuer 1. -/
def after (s : State) (w : Word32) (din : Bytes) : State :=
  match step { s with inputs := [.command 1 w din] } with
  | .next t => t
  | _ => s

/-- The response of that command: STATUS, RESULT, DOUT. -/
def answer (s : State) (w : Word32) (din : Bytes) : Option (Status × Word16 × Bytes) :=
  (after s w din).responses.getLast?.map fun r => (r.status, r.result, r.dout)

/-- A POLL of issuer 2 at a waiting point. -/
def polling (ph : ScanPhase) (W : Bytes) (pos base count : Nat) : Scan :=
  { issuer := 2, phase := ph, window := W, pos := pos, base := base, count := count }

/-- The indices and version program P1 ends with. -/
def afterP1 : State := { holding .k1 17 [] with version := 6 }

/-- The state after INIT under configuration p. -/
def afterInit (p : Params) : State := { State.resetWith p with initialized := true }

/-! ### WellFormed refuses ill-formed commands -/

/-- DIN longer than N can say (30_encoding.md R91). -/
theorem test_wellFormed_din_too_long : (Instr.ringEnqueue (List.replicate 65536 0)).wellFormed .crc16 = false := by
  rw [Instr.wellFormed, Instr.din, List.length_replicate]; rfl

/-- The other codec's SEND form, both ways (R96). -/
theorem test_wellFormed_other_codec :
    (Instr.sendSlip [0x01]).wellFormed .crc16 = false ∧ (Instr.sendCrc 0x00 [0x01]).wellFormed .slip = false := by decide

/-! ### Decoding: words written out from 30_encoding.md R91, R95 and R106 -/

theorem test_decode_init : decode .crc16 0b00000001000000000000000000000000#32 [] = .ok .init := by decide

theorem test_decode_poll : decode .crc16 0b00000010000000000000000000000000#32 [] = .ok .poll := by decide

theorem test_decode_sendCrc :
    decode .crc16 0b00000011111111110000000000000001#32 [0xAA] = .ok (.sendCrc 0xFF [0xAA]) := by decide

theorem test_decode_sendSlip :
    decode .slip 0b00000011000000000000000000000010#32 [0xC0, 0x01] = .ok (.sendSlip [0xC0, 0x01]) := by decide

theorem test_decode_readHook :
    decode .crc16 0b00000100000000000000000000000011#32 [0x01, 0x02, 0x03] = .ok (.readHook [0x01, 0x02, 0x03]) := by decide

theorem test_decode_regRead :
    decode .crc16 0b00001111000100100000000000000000#32 [] = .ok (.regRead .dataSize) := by decide

theorem test_decode_ringEnqueue :
    decode .slip 0b00010000000000000000000000000001#32 [0xAA] = .ok (.ringEnqueue [0xAA]) := by decide

theorem test_decode_ringDequeue :
    decode .crc16 0b00010001000000001111111111111111#32 [] = .ok (.ringDequeue 0xFFFF) := by decide

theorem test_decode_ringPeek : decode .crc16 0b00010010000000000000000000010000#32 [] = .ok (.ringPeek 16) := by decide

theorem test_decode_ringDiscard : decode .crc16 0b00010011000000001000000000000001#32 [] = .ok (.ringDiscard 0x8001) := by decide

theorem test_decode_ringRemaining : decode .crc16 0b00010100000000000000000000000000#32 [] = .ok .ringRemaining := by decide

theorem test_decode_ringDataSize : decode .crc16 0b00010101000000000000000000000000#32 [] = .ok .ringDataSize := by decide

theorem test_decode_crc16Compute :
    decode .slip 0b00100000000000000000000000000001#32 [0x41] = .ok (.crc16Compute [0x41]) := by decide

theorem test_decode_crcPack :
    decode .slip 0b00100001011111110000000000000010#32 [0xC0, 0xDB] = .ok (.crcPack 0x7F [0xC0, 0xDB]) := by decide

theorem test_decode_crcUnpack :
    decode .crc16 0b00100010000000000000000000000001#32 [0xAA] = .ok (.crcUnpack [0xAA]) := by decide

theorem test_decode_slipPack :
    decode .crc16 0b00110000000000000000000000000001#32 [0x24] = .ok (.slipPack [0x24]) := by decide

theorem test_decode_slipUnpack :
    decode .crc16 0b00110001000000000000000000000000#32 [] = .ok (.slipUnpack []) := by decide

theorem test_decode_slipChecksum :
    decode .crc16 0b00110010000000000000000000000010#32 [0xFF, 0x01] = .ok (.slipChecksum [0xFF, 0x01]) := by decide

/-- The ILLEGAL rows of 95_test_vectors.md section 2. -/
theorem test_decode_illegal :
    decode .crc16 0x00000000 [] = .error .reservedOpcode ∧ decode .crc16 0xFF000000 [] = .error .reservedOpcode ∧
    decode .crc16 0x05000000 [] = .error .reservedOpcode ∧ decode .crc16 0x01000001 [] = .error .countNotZero ∧
    decode .crc16 0x01010000 [] = .error .arg8NotZero ∧ decode .crc16 0x12010000 [] = .error .arg8NotZero ∧
    decode .crc16 0x14000001 [] = .error .countNotZero ∧ decode .crc16 0x04000003 [0x01, 0x02] = .error .dinLength ∧
    decode .crc16 0x02000000 [0x00] = .error .dinNotEmpty ∧ decode .crc16 0x0F130000 [] = .error .reservedRegister ∧
    decode .slip 0x03050000 [] = .error .arg8NotZero := by decide

/-- The code columns of R99 and R104 are different codes, inside their ranges. -/
theorem test_codes :
    Status.code .illegalCmd = 0x07 ∧ Status.code .paramError = 0x09 ∧ Event.code .initComplete = 0x06 ∧
    Event.code (.logTruncate 0 0) = 0x10 ∧ Event.code (.logDeferredError 0) = 0x13 := by decide

/-- The host's fetch word runs first (entry 11). -/
theorem test_withFetchWord :
    decodeTableWord 32 0x13000002 = some (.ringDiscard 2) ∧
    (match step (State.reset.withFetchWord 32 0x14000000) with
      | .next t => t == { State.reset with responses := [{ issuer := 0, status := .ok, result := 31, dout := [] }] }
      | _ => false) = true := by decide

/-! ### One step of each command (95_test_vectors.md sections 3 to 6) -/

/-- Section 4 rows 3 and 4. -/
theorem test_init :
    answer .reset 0x01000000 [] = some (.ok, 0, []) ∧ (after .reset 0x01000000 []).events = [.initComplete] ∧
    flagsWord (after .reset 0x01000000 []) = 0x0001 ∧
    answer (afterInit .k1) 0x01000000 [] = some (.alreadyInit, 0, []) := by decide

/-- Section 4 row 2, and program P6 step 6. -/
theorem test_poll :
    answer .reset 0x02000000 [] = some (.notInit, 0, []) ∧
    answer { afterInit .k1 with derrPending := true, derrCode := 0x42 } 0x02000000 [] = some (.deferredError, 0x0042, []) ∧
    (after { afterInit .k1 with derrPending := true, derrCode := 0x42 } 0x02000000 []).events = [.logDeferredError 0x42] ∧
    (after (afterInit .k1) 0x02000000 []).pollActive = true := by decide

set_option maxRecDepth 10000 in
/-- Program P1 step 5: the whole POLL, run to its end. -/
theorem test_poll_two_frames :
    (match Host.Core.run Sys2Proof.core 5
        { holding .k1 2 ([0x11, 0x22] ++ frameA ++ frameB) with inputs := [.command 1 0x02000000 []] } with
      | .next t => t.events.drop 1 == [.decodedRx (.crc 0x01 []), .decodedRx (.crc 0x10 [0x01, 0x02, 0x03])]
          && t.responses == [{ issuer := 1, status := .ok, result := 2, dout := [] }]
          && t.head == 17 && t.tail == 17 && t.version == 3 && !t.pollActive
      | _ => false) = true := by decide

/-- Section 4 rows 1 and 5. -/
theorem test_send_crc :
    answer .reset 0x03010000 [] = some (.notInit, 0, []) ∧
    answer (afterInit .k1) 0x03010000 [] = some (.ok, 5, []) ∧
    (after (afterInit .k1) 0x03010000 []).sink = frameA ∧
    (after (afterInit .k1) 0x03010000 []).events = [.rawTx frameA] := by decide

/-- Program P3 steps 3 and 4, and the FRAME_MIN = 6 table of section 4. -/
theorem test_send_slip :
    answer (afterInit s1) 0x03000003 [0x01, 0xC0, 0xDB] = some (.ok, 8, []) ∧
    (after (afterInit s1) 0x03000003 [0x01, 0xC0, 0xDB]).sink = [0xC0, 0x01, 0xDB, 0xDC, 0xDB, 0xDD, 0x63, 0xC0] ∧
    answer (afterInit s1) 0x03000000 [] = some (.sendGuardDrop, 0, []) ∧
    (after (afterInit { s1 with frameMin := 6 }) 0x03000001 [0xC0]).events =
      [.rawTx [0xC0, 0xDB, 0xDC, 0x3F, 0xC0], .logSendGuard 5] := by decide

/-- Section 4, READ_HOOK with 5 of 8 slots used. -/
theorem test_readHook :
    answer (holding p4 0 [1, 2, 3, 4, 5]) 0x04000003 [0x01, 0x02, 0x03] = some (.backpressureDrop, 0, []) ∧
    (after (holding p4 0 [1, 2, 3, 4, 5]) 0x04000003 [0x01, 0x02, 0x03]).events = [.logBackpressure 3 2] ∧
    answer (holding p4 0 [1, 2, 3, 4, 5]) 0x04000002 [0x01, 0x02] = some (.ok, 2, []) := by decide

/-- Section 2, the constant registers. -/
theorem test_regRead :
    answer .reset 0x0F0F0000 [] = some (.ok, 0xDBC0, []) ∧ answer .reset 0x0F100000 [] = some (.ok, 0xDDDC, []) ∧
    answer .reset 0x0F0B0000 [] = some (.ok, 0x1021, []) ∧ answer .reset 0x0F0E0000 [] = some (.ok, 0x0000, []) ∧
    answer .reset 0x0F000000 [] = some (.ok, 0x0020, []) := by decide

/-- Section 4, the registers after program P1. -/
theorem test_regRead_state :
    answer afterP1 0x0F050000 [] = some (.ok, 0x0011, []) ∧
    answer afterP1 0x0F070000 [] = some (.ok, 0x0006, []) ∧
    answer afterP1 0x0F090000 [] = some (.ok, 0x0003, []) := by decide

/-- Section 3 row 1 (the wrap) and the row of 5 stored bytes. -/
theorem test_ringEnqueue :
    answer (holding p4 6 []) 0x10000003 [0x01, 0x02, 0x03] = some (.ok, 3, []) ∧
    (after (holding p4 6 []) 0x10000003 [0x01, 0x02, 0x03]).buf = [(0, 0x03), (6, 0x01), (7, 0x02)] ∧
    (after (holding p4 6 []) 0x10000003 [0x01, 0x02, 0x03]).tail = 1 ∧
    answer (holding p4 0 [1, 2, 3, 4, 5]) 0x10000003 [0x01, 0x02, 0x03] = some (.truncated, 2, []) ∧
    (after (holding p4 0 [1, 2, 3, 4, 5]) 0x10000003 [0x01, 0x02, 0x03]).events = [.logTruncate 3 2] := by decide

/-- Section 3, RING_DEQUEUE of two of three bytes. -/
theorem test_ringDequeue :
    answer (holding p4 5 [0x0A, 0x0B, 0x0C]) 0x11000002 [] = some (.ok, 2, [0x0A, 0x0B]) ∧
    stored (after (holding p4 5 [0x0A, 0x0B, 0x0C]) 0x11000002 []) = [0x0C] ∧
    (after (holding p4 5 [0x0A, 0x0B, 0x0C]) 0x11000002 []).version = 1 := by decide

/-- Section 3, RING_PEEK of more than is stored. -/
theorem test_ringPeek :
    answer (holding p4 5 [0x0A, 0x0B, 0x0C]) 0x12000008 [] = some (.ok, 3, [0x0A, 0x0B, 0x0C]) ∧
    (after (holding p4 5 [0x0A, 0x0B, 0x0C]) 0x12000008 []).version = 0 := by decide

/-- Section 3, RING_DISCARD. -/
theorem test_ringDiscard :
    answer (holding p4 5 [0x0A, 0x0B, 0x0C]) 0x13000002 [] = some (.ok, 2, []) ∧
    (after (holding p4 5 [0x0A, 0x0B, 0x0C]) 0x13000002 []).head = 7 := by decide

/-- Section 3, RING_REMAINING and RING_DATA_SIZE. -/
theorem test_ringSizes :
    answer (holding p4 6 [1, 2, 3]) 0x14000000 [] = some (.ok, 4, []) ∧
    answer (holding p4 6 [1, 2, 3]) 0x15000000 [] = some (.ok, 3, []) := by decide

/-- Section 3, the lock row. -/
theorem test_ring_lock_busy :
    answer { holding k1Any 0 [1] with draws := [true] } 0x11000001 [] = some (.lockBusy, 0, []) := by decide

/-- Section 5, the first table. -/
theorem test_crc16Compute :
    answer .reset 0x20000009 [0x31, 0x32, 0x33, 0x34, 0x35, 0x36, 0x37, 0x38, 0x39] = some (.ok, 0x29B1, []) ∧
    answer .reset 0x20000000 [] = some (.ok, 0xFFFF, []) ∧
    answer (.resetWith { Params.k1 with crcInit := 0 }) 0x20000001 [0x41] = some (.ok, 0x58E5, []) := by decide

/-- The first and last rows of the table of 42_crc16.md R211, and its row 0x80. -/
theorem test_crcTable :
    [0x00, 0x01, 0x02, 0x03, 0x04, 0x05, 0x06, 0x07].map crcTable =
      [0x0000, 0x1021, 0x2042, 0x3063, 0x4084, 0x50A5, 0x60C6, 0x70E7] ∧
    [0x80, 0x81, 0x82, 0x83, 0x84, 0x85, 0x86, 0x87].map crcTable =
      [0x9188, 0x81A9, 0xB1CA, 0xA1EB, 0xD10C, 0xC12D, 0xF14E, 0xE16F] ∧
    [0xF8, 0xF9, 0xFA, 0xFB, 0xFC, 0xFD, 0xFE, 0xFF].map crcTable =
      [0x6E17, 0x7E36, 0x4E55, 0x5E74, 0x2E93, 0x3EB2, 0x0ED1, 0x1EF0] := by decide

/-- Section 5, CRC_PACK. -/
theorem test_crcPack :
    answer .reset 0x21100003 [0x01, 0x02, 0x03] = some (.ok, 8, frameB) ∧
    answer .reset 0x217F0002 [0xC0, 0xDB] = some (.ok, 7, [0xAA, 0x7F, 0x02, 0xC0, 0xDB, 0x7F, 0xE9]) := by decide

/-- Section 5, CRC_UNPACK. -/
theorem test_crcUnpack :
    answer .reset 0x22000009 (frameB ++ [0x55]) = some (.ok, 8, [0x10, 0x03, 0x01, 0x02, 0x03]) ∧
    answer .reset 0x22000005 [0xAA, 0x00, 0xFF, 0x01, 0x02] = some (.ok, 0, []) ∧
    answer .reset 0x22000007 frameB.dropLast = some (.ok, 0, []) := by decide

/-- Section 6, SLIP_PACK: a stuffed checksum, two stuffed bytes, an empty body. -/
theorem test_slipPack :
    answer .reset 0x30000001 [0x24] = some (.ok, 5, [0xC0, 0x24, 0xDB, 0xDD, 0xC0]) ∧
    answer .reset 0x30000002 [0xC0, 0xC0] = some (.ok, 7, [0xC0, 0xDB, 0xDC, 0xDB, 0xDC, 0x7F, 0xC0]) ∧
    answer .reset 0x30000000 [] = some (.paramError, 0, []) := by decide

/-- Section 6, SLIP_UNPACK: a trailing byte, a stuffed checksum, an escaped END, one content byte. -/
theorem test_slipUnpack :
    answer .reset 0x31000007 [0xC0, 0x01, 0x02, 0x03, 0xF9, 0xC0, 0xAA] = some (.ok, 6, [0x01, 0x02, 0x03]) ∧
    answer .reset 0x31000005 [0xC0, 0x24, 0xDB, 0xDD, 0xC0] = some (.ok, 5, [0x24]) ∧
    answer .reset 0x31000006 [0xC0, 0x01, 0xDB, 0xC0, 0x00, 0xC0] = some (.ok, 0, []) ∧
    answer .reset 0x31000003 [0xC0, 0xFF, 0xC0] = some (.ok, 0, []) := by decide

/-- Section 6, SLIP_CHECKSUM. -/
theorem test_slipChecksum :
    answer .reset 0x32000003 [0x01, 0x02, 0x03] = some (.ok, 0x00F9, []) ∧
    answer .reset 0x32000002 [0xFF, 0x01] = some (.ok, 0x00FF, []) ∧
    answer .reset 0x32000000 [] = some (.ok, 0x00FF, []) := by decide

/-! ### Witnesses: concrete states and operands that meet the hypotheses of each statement -/

/-- The invariant of a state with nothing in `txbuf`, from what `decide` can check and the two clauses it can't. -/
theorem inv_of {s : State}
    (h : legal s.cfg = true ∧ s.head.toNat < s.cfg.C ∧ s.tail.toNat < s.cfg.C ∧ s.buf.wf ∧ (∀ c ∈ s.buf, c.1 < s.cfg.C) ∧
      (∀ k < dataSize s, (s.buf.find ((s.head.toNat + k) % s.cfg.C)).isSome = true) ∧ s.txbuf = [] ∧ s.ringLock = .free ∧
      s.sendLock = .free ∧ (s.running = true → s.initialized = true))
    (hf : s.rxFrame.fits s.cfg.codec) (hs : ∀ sc, s.scan = some sc → s.initialized = true ∧ sc.Ok s.cfg s.running) : s.Inv := by
  obtain ⟨h1, h2, h3, h4, h5, h6, h7, h8, h9, h10⟩ := h
  refine ⟨h1, ⟨h2, h3, h4, h5, h6⟩, ?_, ?_, h8, h9, h10, hf, hs⟩
  · rw [h7]; exact List.Pairwise.nil
  · rw [h7]; intro c hc; cases hc

/-- A block that has just been reset, under K1. -/
theorem inv_reset : State.reset.Inv := inv_of (by decide) ⟨rfl, by decide⟩ (by intro sc h; cases h)

/-- A running block with no POLL active; ring and schedule are plain data. -/
def ringWith (p : Params) (h : Nat) (D : Bytes) (draws : List Bool) : State := { holding p h D with draws := draws }

/-- The ring of program P4 with five bytes stored across the wrap. -/
def wRing : State := ringWith p4 6 [0x01, 0x02, 0x03, 0x04, 0x05] []

theorem inv_wRing : wRing.Inv := inv_of (by decide) ⟨rfl, by decide⟩ (by intro sc h; cases h)

/-- A running block under LOCK_FAIL_MODE = ANY whose next draw fails. -/
def wBusy : State := ringWith k1Any 0 frameA [true]

theorem inv_wBusy : wBusy.Inv := inv_of (by decide) ⟨rfl, by decide⟩ (by intro sc h; cases h)

/-- The window of program P1 step 5. -/
def wWindow : Bytes := [0x11, 0x22] ++ frameA ++ frameB

/-- The POLL of program P1 step 5, before its window peek. -/
def wStart : State := { holding .k1 2 wWindow with scan := some (polling .start [] 0 0 0) }

theorem inv_wStart : wStart.Inv :=
  inv_of (by decide) ⟨rfl, by decide⟩ (by intro sc h; cases h; exact ⟨rfl, rfl, rfl, rfl, rfl⟩)

/-- The same POLL with an empty ring. -/
def wEmpty : State := { holding .k1 2 [] with scan := some (polling .start [] 0 0 0) }

theorem inv_wEmpty : wEmpty.Inv :=
  inv_of (by decide) ⟨rfl, by decide⟩ (by intro sc h; cases h; exact ⟨rfl, rfl, rfl, rfl, rfl⟩)

/-- A first POLL, with stale bytes in the ring. -/
def wFirst : State := { holding .k1 2 wWindow with running := false, scan := some (polling .start [] 0 0 0) }

theorem inv_wFirst : wFirst.Inv :=
  inv_of (by decide) ⟨rfl, by decide⟩ (by intro sc h; cases h; exact ⟨rfl, rfl, rfl, rfl, rfl⟩)

/-- The POLL of program P1 step 5, before its resynchronization discard. -/
def wResync : State := { holding .k1 2 wWindow with scan := some (polling .resync wWindow 2 0 0) }

theorem inv_wResync : wResync.Inv :=
  inv_of (by decide) ⟨rfl, by decide⟩ (by
    intro sc h; cases h
    exact ⟨rfl, rfl, by decide, by decide, by decide, rfl, rfl⟩)

/-- The POLL of program P1 step 5, before it takes frame A. -/
def wFrame : State := { holding .k1 4 (frameA ++ frameB) with scan := some (polling .frame wWindow 2 2 0) }

theorem inv_wFrame : wFrame.Inv :=
  inv_of (by decide) ⟨rfl, by decide⟩ (by
    intro sc h; cases h
    exact ⟨rfl, rfl, by decide, by decide, by decide, 5, .crc 0x01 [], by decide, by decide, by decide⟩)

/-- The same place, with a failing draw. -/
def wFrameBusy : State :=
  { holding k1Any 4 (frameA ++ frameB) with scan := some (polling .frame wWindow 2 2 0), draws := [true] }

theorem inv_wFrameBusy : wFrameBusy.Inv :=
  inv_of (by decide) ⟨rfl, by decide⟩ (by
    intro sc h; cases h
    exact ⟨rfl, rfl, by decide, by decide, by decide, 5, .crc 0x01 [], by decide, by decide, by decide⟩)

/-- The stalled window of program P5. -/
def wStall : State :=
  { holding p5 0 [0xAA, 0x00, 0x09, 0x01, 0x02, 0x03, 0x04, 0x05, 0x06, 0x07] with scan := some (polling .start [] 0 0 0) }

theorem inv_wStall : wStall.Inv :=
  inv_of (by decide) ⟨rfl, by decide⟩ (by intro sc h; cases h; exact ⟨rfl, rfl, rfl, rfl, rfl⟩)

/-- A state with something scheduled. -/
def due (s : State) (x : Input) : State := { s with inputs := [x] }

theorem inv_due {s : State} (h : s.Inv) (x : Input) : (due s x).Inv :=
  ⟨h.legal, ⟨h.ring.head_lt, h.ring.tail_lt, h.ring.buf_wf, h.ring.buf_in, h.ring.written⟩, h.txbuf_wf, h.txbuf_in, h.ring_free,
    h.send_free, h.running_initialized, h.rx_fits, h.scan_ok⟩

/-- The state a step answers. -/
def next (s : State) : State :=
  match step s with
  | .next t => t
  | _ => s

/-- The state a command answers. -/
def nextOf (i : Instr) (s : State) : State :=
  match exec i s with
  | .next t => t
  | _ => s

theorem witness_DecodeEncodeRoundTrip :
    (Instr.sendCrc 0xFF [0x00, 0xAA]).wellFormed .crc16 = true ∧ (Instr.sendSlip [0xC0]).wellFormed .slip = true ∧
    (Instr.ringDequeue 0xFFFF).wellFormed .slip = true ∧ (Instr.regRead .dataSize).wellFormed .crc16 = true := by decide

theorem witness_DecodedWordIsItsEncoding :
    decode .crc16 0x03050002 [0xAA, 0x01] = .ok (.sendCrc 0x05 [0xAA, 0x01]) ∧
    decode .slip 0x0F000000 [] = .ok (.regRead .capacity) := by decide

theorem witness_StepRunsDecodedCommand :
    let s := due wStart (.command 1 0x12000010 [])
    legal s.cfg = true ∧ s.inputs = .command 1 0x12000010 [] :: [] ∧ waits 1 s = false ∧
      decode s.cfg.codec 0x12000010 [] = .ok (.ringPeek 16) := by decide

theorem witness_IllegalCommandResponds :
    let s := due State.reset (.command 1 0x02000000 [0x00])
    legal s.cfg = true ∧ s.inputs = .command 1 0x02000000 [0x00] :: [] ∧ waits 1 s = false ∧
      decode s.cfg.codec 0x02000000 [0x00] = .error .dinNotEmpty := by decide

theorem witness_RaiseDerrRecordsFirst :
    let s := due { State.reset with derrPending := true, derrCode := 0x42 } (.raiseDerr 0x43)
    legal s.cfg = true ∧ s.inputs = .raiseDerr 0x43 :: [] ∧ s.derrPending = true := by decide

theorem witness_IdleKeepsState : legal wRing.cfg = true ∧ wRing.inputs = [] ∧ wRing.pollActive = false := by decide

theorem witness_PollTakesItsTurn :
    (legal wStart.cfg = true ∧ wStart.inputs = []) ∧
    (legal (due wStart .pollTurn).cfg = true ∧ (due wStart .pollTurn).inputs = .pollTurn :: []) ∧
    (legal (due wStart (.command 2 0x14000000 [])).cfg = true ∧
      (due wStart (.command 2 0x14000000 [])).inputs = .command 2 0x14000000 [] :: [] ∧
      waits 2 (due wStart (.command 2 0x14000000 [])) = true) := by decide

theorem witness_IllegalConfigurationRefused :
    legal { Params.k1 with frameMin := 6 } = false ∧ legal { Params.k1 with frameMax := 32 } = false ∧
    legal { Params.k1 with frameMax := 31 } = true ∧ legal { s1 with sync := 0xAA } = false ∧ legal s1 = true := by decide

theorem witness_StepAlwaysAnswers : legal wFrame.cfg = true := by decide

theorem witness_ResetSatisfiesInv : legal Params.k1 = true ∧ legal s1 = true ∧ legal k1Any = true := by decide

theorem witness_StepKeepsInv : (due wResync .pollTurn).Inv ∧ ∃ t, step (due wResync .pollTurn) = .next t :=
  ⟨inv_due inv_wResync _, _, rfl⟩

theorem witness_VersionCountsRingChanges :
    ((due wRing (.command 1 0x13000002 [])).Inv ∧
      step (due wRing (.command 1 0x13000002 [])) = .next (next (due wRing (.command 1 0x13000002 []))) ∧
      (next (due wRing (.command 1 0x13000002 []))).head ≠ wRing.head) ∧
    ((due wRing (.command 1 0x12000002 [])).Inv ∧
      step (due wRing (.command 1 0x12000002 [])) = .next (next (due wRing (.command 1 0x12000002 []))) ∧
      (next (due wRing (.command 1 0x12000002 []))).head = wRing.head) :=
  ⟨⟨inv_due inv_wRing _, rfl, by decide⟩, ⟨inv_due inv_wRing _, rfl, by decide⟩⟩

theorem witness_StreamsOnlyGrow :
    let s := due (afterInit .k1) (.command 1 0x03010000 [])
    step s = .next (next s) ∧ (next s).sink ≠ s.sink := ⟨rfl, by decide⟩

theorem witness_ReservedEventsNeverEmitted :
    let s := due wFrame .pollTurn
    step s = .next (next s) ∧ Event.decodedRx (.crc 0x01 []) ∈ (next s).events.drop s.events.length := ⟨rfl, by decide⟩

theorem witness_OnlyResetClearsFlags :
    (due wStart .pollTurn).Inv ∧ (∃ t, step (due wStart .pollTurn) = .next t) ∧
      (due wStart .pollTurn).initialized = true ∧ (due wStart .pollTurn).running = true :=
  ⟨inv_due inv_wStart _, ⟨_, rfl⟩, rfl, rfl⟩

/-- One witness for each clause: INIT, RAISE_DERR, a POLL that reports, the first-poll clear. -/
theorem witness_FlagsChangeByTheirRules :
    ((due State.reset (.command 1 0x01000000 [])).Inv ∧
      step (due State.reset (.command 1 0x01000000 [])) = .next (next (due State.reset (.command 1 0x01000000 []))) ∧
      (next (due State.reset (.command 1 0x01000000 []))).initialized ≠ State.reset.initialized) ∧
    ((due wRing (.raiseDerr 0x42)).Inv ∧ step (due wRing (.raiseDerr 0x42)) = .next (next (due wRing (.raiseDerr 0x42))) ∧
      (next (due wRing (.raiseDerr 0x42))).derrPending ≠ wRing.derrPending ∧
      (next (due wRing (.raiseDerr 0x42))).derrCode ≠ wRing.derrCode) ∧
    (step (due { wRing with derrPending := true } (.command 1 0x02000000 [])) =
        .next (next (due { wRing with derrPending := true } (.command 1 0x02000000 []))) ∧
      (next (due { wRing with derrPending := true } (.command 1 0x02000000 []))).derrPending ≠ true) ∧
    ((due wFirst .pollTurn).Inv ∧ step (due wFirst .pollTurn) = .next (next (due wFirst .pollTurn)) ∧
      (next (due wFirst .pollTurn)).running ≠ wFirst.running) :=
  ⟨⟨inv_due inv_reset _, rfl, by decide⟩, ⟨inv_due inv_wRing _, rfl, by decide, by decide⟩, ⟨rfl, by decide⟩,
    ⟨inv_due inv_wFirst _, rfl, by decide⟩⟩

theorem witness_OneResponsePerCommand :
    let s := due wRing (.command 1 0x02000000 [])
    step s = .next (next s) ∧ taken s = 1 ∧ unanswered (next s) = 1 := ⟨rfl, by decide, by decide⟩

theorem witness_RingLockFailureChangesNothing : takesRingLock (.ringDequeue 3) ∧ takesRingLock (.readHook [0xAA]) ∧ lockFails wBusy :=
  ⟨trivial, trivial, rfl⟩

theorem witness_LockFailureIsTheDraw : wRing.cfg.lockFailMode = .never ∧ wBusy.cfg.lockFailMode = .any := by decide

/-- Both clauses of a truncating enqueue: 2 bytes fit, a third doesn't. -/
theorem witness_RingEnqueueAppends :
    wRing.Inv ∧ ringReady wRing ∧ min [0x0A, 0x0B, 0x0C].length (wRing.cfg.C - 1 - dataSize wRing) = 2 :=
  ⟨inv_wRing, ⟨rfl, rfl⟩, by decide⟩

theorem witness_RingDequeueRemovesWhatItReturns :
    wRing.Inv ∧ ringReady wRing ∧ min (3#16).toNat (dataSize wRing) = 3 ∧ min (0xFFFF#16).toNat (dataSize wRing) = 5 :=
  ⟨inv_wRing, ⟨rfl, rfl⟩, by decide, by decide⟩

theorem witness_RingPeekReturnsStored :
    wRing.Inv ∧ ringReady wRing ∧ (stored wRing).take (3#16).toNat = [0x01, 0x02, 0x03] := ⟨inv_wRing, ⟨rfl, rfl⟩, by decide⟩

theorem witness_RingDiscardRemoves :
    wRing.Inv ∧ ringReady wRing ∧ (stored wRing).drop (3#16).toNat = [0x04, 0x05] := ⟨inv_wRing, ⟨rfl, rfl⟩, by decide⟩

theorem witness_RingSizesReported : wRing.Inv ∧ ringReady wRing ∧ (stored wRing).length = 5 := ⟨inv_wRing, ⟨rfl, rfl⟩, by decide⟩

theorem witness_RingIsFifo :
    State.reset.Inv ∧ State.reset.cfg.lockFailMode = .never ∧ dataSize State.reset = 0 ∧
      [frameA, [], frameB].flatten.length ≤ State.reset.cfg.C - 1 := ⟨inv_reset, rfl, by decide, by decide⟩

theorem witness_CapacityLaw : wRing.Inv ∧ wRing.cfg.lockFailMode = .never := ⟨inv_wRing, rfl⟩

theorem witness_InitOnce : State.reset.initialized = false ∧ wRing.initialized = true := by decide

/-- A chunk that just fits. -/
theorem witness_ReadHookStoresWholeChunk :
    wRing.Inv ∧ ringReady wRing ∧ [0x0A, 0x0B].length ≤ wRing.cfg.C - 1 - dataSize wRing := ⟨inv_wRing, ⟨rfl, rfl⟩, by decide⟩

/-- A chunk one byte too long. -/
theorem witness_ReadHookDropsWholeChunk :
    ringReady wRing ∧ [0x0A, 0x0B, 0x0C].length > wRing.cfg.C - 1 - dataSize wRing := ⟨⟨rfl, rfl⟩, by decide⟩

theorem witness_RegReadValues : wStart.Inv := inv_wStart

theorem witness_CrcPackBuildsFrame : (List.replicate 255 (0 : Byte)).length ≤ 255 ∧ (List.replicate 256 (0 : Byte)).length > 255 := by
  rw [List.length_replicate, List.length_replicate]; decide

/-- A frame with a trailing byte; and the empty string, which no frame begins. -/
theorem witness_CrcUnpackFindsExactlyFrames :
    ([0x01, 0x02, 0x03].length ≤ 255 ∧ frameB ++ [0x55] = crcPack State.reset.cfg 0x10 [0x01, 0x02, 0x03] ++ [0x55] ∧
      State.reset.cfg.minLen ≤ 5 + [0x55].length) ∧
    (∀ cmd P Y, P.length ≤ 255 → [] = crcPack State.reset.cfg cmd P ++ Y → ¬ State.reset.cfg.minLen ≤ 5 + Y.length) := by
  refine ⟨⟨by decide, by decide, by decide⟩, ?_⟩
  intro cmd P Y hP hX
  have := congrArg List.length hX
  simp only [List.length_append, crcPack_length hP, List.length_nil] at this
  omega

theorem witness_CrcRoundTrip : (List.replicate 255 (0xAA : Byte)).length ≤ 255 ∧ Params.k1.minLen ≤ 5 + ([] : Bytes).length := by
  rw [List.length_replicate]; decide

/-- The flip of program P7 part c. -/
theorem witness_CrcDetectsPayloadByteChange :
    [0x01, 0x02, 0x03].length ≤ 255 ∧ 1 < [0x01, 0x02, 0x03].length ∧ (0x42 : Byte) ≠ [0x01, 0x02, 0x03].getD 1 0 := by decide

theorem witness_SlipPackBuildsFrame : ([0xC0, 0xDB] : Bytes) ≠ [] ∧ ([] : Bytes) = [] := by decide

/-- A frame with a trailing byte; and the empty string, which no frame begins. -/
theorem witness_SlipUnpackFindsExactlyFrames :
    legal (State.resetWith s1).cfg = true ∧
    (([0xC0] : Bytes) ≠ [] ∧ [0xC0, 0xDB, 0xDC, 0x3F, 0xC0, 0x55] = slipPack (State.resetWith s1).cfg [0xC0] ++ [0x55]) ∧
    (∀ D Y, D ≠ [] → [] ≠ slipPack (State.resetWith s1).cfg D ++ Y) := by
  refine ⟨by decide, ⟨by decide, by decide⟩, ?_⟩
  intro D Y hD hX
  have hl : D.length ≠ 0 := fun h => hD (List.eq_nil_of_length_eq_zero h)
  simp [slipPack, hl] at hX

theorem witness_SlipRoundTrip : legal s1 = true ∧ 1 ≤ [(0xDB : Byte), 0xC0].length := by decide

theorem witness_PureCommandsChangeNothing :
    (∃ x, Instr.slipPack [0x24] = .crc16Compute x ∨ Instr.slipPack [0x24] = .crcUnpack x ∨ Instr.slipPack [0x24] = .slipPack x ∨
      Instr.slipPack [0x24] = .slipUnpack x ∨ Instr.slipPack [0x24] = .slipChecksum x ∨
      ∃ c, Instr.slipPack [0x24] = .crcPack c x) ∧ State.reset.cfg = .k1 :=
  ⟨⟨[0x24], .inr (.inr (.inl rfl))⟩, rfl⟩

/-- A frame that is written, and one longer than TX_MAX, which isn't (95_test_vectors.md section 4 rows 5 and 7). -/
theorem witness_SendCrcPath :
    (afterInit .k1).cfg.codec = .crc16 ∧ (afterInit .k1).initialized = true ∧ sendReady (afterInit .k1) ∧
      ([] : Bytes).length + 5 ≤ (afterInit .k1).cfg.txLen ∧ (List.replicate 60 (0 : Byte)).length + 5 > (afterInit .k1).cfg.txLen :=
  ⟨rfl, rfl, ⟨rfl, rfl⟩, by decide, by decide⟩

theorem witness_SendSlipPath :
    (afterInit s1).cfg.codec = .slip ∧ (afterInit s1).initialized = true ∧ sendReady (afterInit s1) ∧
      (slipPack s1 [0x01, 0xC0, 0xDB]).length ≤ s1.txLen := ⟨rfl, rfl, ⟨rfl, rfl⟩, by decide⟩

/-- One witness for each clause. -/
theorem witness_SendTurnedAway :
    (State.reset.cfg.codec = .crc16 ∧ State.reset.initialized = false) ∧
    (wBusy.cfg.codec = .crc16 ∧ wBusy.initialized = true ∧ lockFails wBusy) ∧ (State.reset.cfg.codec ≠ .slip) ∧
    ((Codec.slip = .crc16 ∧ (∃ cmd P, Instr.sendSlip [0x01] = .sendCrc cmd P)) ∨
      (Codec.slip = .slip ∧ (∃ D, Instr.sendSlip [0x01] = .sendSlip D))) :=
  ⟨by decide, ⟨rfl, rfl, rfl⟩, by decide, .inr ⟨rfl, _, rfl⟩⟩

theorem witness_SendIgnoresReceiveSide :
    ((∃ cmd P, Instr.sendCrc 0x01 [] = .sendCrc cmd P) ∨ (∃ D, Instr.sendCrc 0x01 [] = .sendSlip D)) ∧
      exec (.sendCrc 0x01 []) (afterInit .k1) = .next (nextOf (.sendCrc 0x01 []) (afterInit .k1)) :=
  ⟨.inl ⟨_, _, rfl⟩, rfl⟩

/-- One state for each entry check, in their order, and one that passes them. -/
theorem witness_PollEntryChecks :
    State.reset.initialized = false ∧ (wStart.initialized = true ∧ wStart.pollActive = true) ∧
    (let s := { wRing with derrPending := true, derrCode := 0x42 }
     s.initialized = true ∧ s.pollActive = false ∧ s.derrPending = true) ∧
    (wRing.initialized = true ∧ wRing.pollActive = false ∧ wRing.derrPending = false) := by decide

theorem witness_FirstPollClears :
    wFirst.Inv ∧ wFirst.scan = some (polling .start [] 0 0 0) ∧ (polling .start [] 0 0 0).phase = .start ∧
      wFirst.running = false ∧ ringReady wFirst ∧ dataSize wFirst = 15 :=
  ⟨inv_wFirst, rfl, rfl, rfl, ⟨rfl, rfl⟩, by decide⟩

/-- An empty window, and one whose first SYNC is its third byte. -/
theorem witness_PollPeeksWindow :
    (wEmpty.Inv ∧ wEmpty.scan = some (polling .start [] 0 0 0) ∧ wEmpty.running = true ∧ ringReady wEmpty ∧
      (stored wEmpty).take wEmpty.cfg.maxLen = []) ∧
    (wStart.Inv ∧ wStart.scan = some (polling .start [] 0 0 0) ∧ wStart.running = true ∧ ringReady wStart ∧
      (stored wStart).take wStart.cfg.maxLen ≠ [] ∧ ((stored wStart).take wStart.cfg.maxLen).getD 0 0 ≠ wStart.cfg.sync) :=
  ⟨⟨inv_wEmpty, rfl, rfl, ⟨rfl, rfl⟩, by decide⟩, ⟨inv_wStart, rfl, rfl, ⟨rfl, rfl⟩, by decide, by decide⟩⟩

theorem witness_PollResynchronizes :
    wResync.Inv ∧ wResync.scan = some (polling .resync wWindow 2 0 0) ∧ (polling .resync wWindow 2 0 0).phase = .resync ∧
      ringReady wResync := ⟨inv_wResync, rfl, rfl, ⟨rfl, rfl⟩⟩

theorem witness_PollDecodesFrame :
    wFrame.Inv ∧ wFrame.scan = some (polling .frame wWindow 2 2 0) ∧ ringReady wFrame ∧
      unpack wFrame.cfg (wWindow.drop 2) = some (5, .crc 0x01 []) := ⟨inv_wFrame, rfl, ⟨rfl, rfl⟩, by decide⟩

theorem witness_PollLockFailureEndsIt :
    wFrameBusy.Inv ∧ wFrameBusy.scan = some (polling .frame wWindow 2 2 0) ∧ lockFails wFrameBusy := ⟨inv_wFrameBusy, rfl, rfl⟩

set_option maxRecDepth 10000 in
theorem witness_PollMatchesPseudocode :
    wStart.Inv ∧ wStart.inputs = [] ∧ wStart.cfg.lockFailMode = .never ∧ wStart.scan = some (polling .start [] 0 0 0) ∧
      wStart.running = true ∧ (stored wStart).take wStart.cfg.maxLen = wWindow ∧
      scanAll .k1 frameB = ([.crc 0x10 [0x01, 0x02, 0x03]], 8) :=
  ⟨inv_wStart, rfl, rfl, rfl, rfl, by decide, by decide⟩

theorem witness_PollAlwaysEnds :
    wFirst.Inv ∧ wFirst.inputs = [] ∧ wFirst.scan = some (polling .start [] 0 0 0) := ⟨inv_wFirst, rfl, rfl⟩

/-- Program P5. -/
theorem witness_WindowStall :
    wStall.Inv ∧ wStall.scan = some (polling .start [] 0 0 0) ∧ wStall.running = true ∧ ringReady wStall ∧
      ((stored wStall).take wStall.cfg.maxLen).length = wStall.cfg.maxLen ∧
      ((stored wStall).take wStall.cfg.maxLen).getD 0 0 = wStall.cfg.sync ∧
      noMatch wStall.cfg ((stored wStall).take wStall.cfg.maxLen) := by
  refine ⟨inv_wStall, rfl, rfl, ⟨rfl, rfl⟩, by decide, by decide, ?_⟩
  show ∀ i, i < 8 → _
  decide

/-- Program P7 part a, with a second frame behind the first. -/
theorem witness_GarbageThenFramesDecoded :
    legal Params.k1 = true ∧ (∀ b ∈ ([0x11, 0x22, 0x33] : Bytes), b ≠ Params.k1.sync) ∧
    (∀ F ∈ [Frame.crc 0x10 [0x01, 0x02, 0x03], Frame.crc 0x01 []],
      F.fits Params.k1.codec ∧ Params.k1.minLen ≤ (pack .k1 F).length) := by
  refine ⟨by decide, by decide, ?_⟩
  intro F hF
  simp only [List.mem_cons, List.not_mem_nil, or_false] at hF
  rcases hF with rfl | rfl
  · exact ⟨⟨rfl, by decide⟩, by decide⟩
  · exact ⟨⟨rfl, by decide⟩, by decide⟩

/-- Frame B as its codec packs it. -/
theorem pack_frameB : pack .k1 (.crc 0x10 [0x01, 0x02, 0x03]) = frameB := by decide

/-- Program P7 part b, and the shortest and longest first part. -/
theorem witness_SplitFrameWaits :
    legal Params.k1 = true ∧ (Frame.crc 0x10 [0x01, 0x02, 0x03]).fits Params.k1.codec ∧
    ∀ k ∈ [1, 4, 7], 0 < k ∧ k < (pack .k1 (.crc 0x10 [0x01, 0x02, 0x03])).length ∧
      (∀ b ∈ ((pack .k1 (.crc 0x10 [0x01, 0x02, 0x03])).take k).drop 1, b ≠ Params.k1.sync) := by
  rw [pack_frameB]
  exact ⟨by decide, ⟨rfl, by decide⟩, by decide⟩

theorem witness_EnqueueDuringPollIsSafe :
    wResync.Inv ∧ wResync.pollActive = true ∧
    (∃ D, Instr.readHook [0xAA] = .ringEnqueue D ∨ Instr.readHook [0xAA] = .readHook D) ∧
      exec (.readHook [0xAA]) wResync = .next (nextOf (.readHook [0xAA]) wResync) :=
  ⟨inv_wResync, rfl, ⟨[0xAA], .inr rfl⟩, rfl⟩

end Sys2Proof.Tests
end

/-! PROOF. The configurations a step has a meaning for (00_scope.md R8). -/

namespace Sys2Proof.Machine

/-- R8 as its list of constraints. C ≤ 65535 comes with the width of the parameter. -/
theorem legal_iff (p : Params) :
    legal p = true ↔
      (2 ≤ p.C ∧ p.C ≤ 65535 ∧ 1 ≤ p.minLen ∧ p.minLen ≤ p.maxLen ∧ p.maxLen ≤ p.C - 1 ∧ p.txLen ≥ p.minLen ∧
        p.crcRefin = false ∧ p.crcRefout = false ∧
        slipEnd ≠ slipEsc ∧ slipEnd ≠ p.slipEscEnd ∧ slipEnd ≠ p.slipEscEsc ∧ slipEsc ≠ p.slipEscEnd ∧
        slipEsc ≠ p.slipEscEsc ∧ p.slipEscEnd ≠ p.slipEscEsc ∧
        (p.codec = .slip → p.sync = slipEnd) ∧ (p.codec = .crc16 → p.minLen ≤ 5)) := by
  have hC : p.C ≤ 65535 := Nat.le_of_lt_succ p.capacity.isLt
  simp only [legal, Bool.and_eq_true, Bool.or_eq_true, Bool.not_eq_true', decide_eq_true_eq, List.nodup_cons, List.mem_cons,
    List.not_mem_nil, or_false, not_or, ← Decidable.imp_iff_not_or, not_false_eq_true, List.nodup_nil, and_true, hC, true_and,
    and_assoc, ne_eq, ge_iff_le]

/-- Only the meaning of the other codec's SEND form is a refusal; every other command of a block answers a next state
(30_encoding.md R96). -/
theorem exec_next_or_otherCodec (i : Instr) (s : State) :
    (∃ t, exec i s = .next t) ∨ (i.codecOk s.cfg.codec = false ∧ exec i s = .refused .otherCodec) := by
  cases i with
  | sendCrc cmd payload =>
    simp only [exec, execSendCrc, Instr.codecOk]
    split <;> simp [*]
  | sendSlip body =>
    simp only [exec, execSendSlip, Instr.codecOk]
    split <;> simp [*]
  | init => left; simp only [exec, execInit]; split <;> exact ⟨_, rfl⟩
  | poll => left; simp only [exec, execPoll]; split_ifs <;> exact ⟨_, rfl⟩
  | crcPack cmd payload => left; simp only [exec, execCrcPack]; split <;> exact ⟨_, rfl⟩
  | crcUnpack data => left; simp only [exec, execCrcUnpack]; split <;> exact ⟨_, rfl⟩
  | slipPack body => left; simp only [exec, execSlipPack]; split <;> exact ⟨_, rfl⟩
  | slipUnpack data => left; simp only [exec, execSlipUnpack]; split <;> exact ⟨_, rfl⟩
  | readHook | regRead | ringEnqueue | ringDequeue | ringPeek | ringDiscard | ringRemaining | ringDataSize | crc16Compute
  | slipChecksum => exact .inl ⟨_, rfl⟩

theorem exec_ne_badParams (i : Instr) (s : State) : exec i s ≠ .refused .badParams := by
  obtain ⟨t, h⟩ | ⟨-, h⟩ := exec_next_or_otherCodec i s <;> simp [h]

theorem takeCommand_ne_stop (w : Word32) (din : Bytes) (s : State) (r : Refusal) : takeCommand w din s ≠ .stop r := by
  unfold takeCommand
  split <;> simp

theorem fetch_of_not_legal {s : State} (h : legal s.cfg = false) : fetch s = .stop .badParams := by
  simp [fetch, h]

theorem fetch_ne_stop {s : State} (h : legal s.cfg = true) (r : Refusal) : fetch s ≠ .stop r := by
  cases hi : s.inputs with
  | nil => simp [fetch, h, hi]
  | cons x rest =>
    cases x with
    | pollTurn => simp [fetch, h, hi]
    | raiseDerr code => simp [fetch, h, hi]
    | command issuer w din =>
      cases hw : waits issuer s
      · simpa [fetch, h, hi, hw] using takeCommand_ne_stop w din _ r
      · simp [fetch, h, hi, hw]

/-- A step is refused for its configuration exactly when the configuration is not legal. -/
theorem step_ne_badParams_iff (s : State) : step s ≠ .refused .badParams ↔ legal s.cfg = true := by
  constructor
  · intro h
    by_contra hl
    exact h (by simp [step, fetch_of_not_legal (eq_false_of_ne_true hl)])
  · intro hl
    cases hf : fetch s with
    | run i t => simpa [step, hf] using exec_ne_badParams i t
    | done t => simp [step, hf]
    | stop r => exact absurd hf (fetch_ne_stop hl r)

/-- Settles O10: R8 is `legal`, and a step refuses for its configuration exactly where `legal` fails. -/
theorem illegalConfigurationRefused : Obligations.IllegalConfigurationRefused :=
  fun s => (legal_iff s.cfg).symm.trans (step_ne_badParams_iff s).symm

end Sys2Proof.Machine

/-! PROOF. What a step leaves alone: which fields a command, a micro-step of the POLL and the environment can change. -/

namespace Sys2Proof.Machine

/-! ### States that agree but for the POLL's own fields and the output streams -/

/-- t agrees with s on the ring, the flags, the locks, `txbuf` and `sink`; events and responses have only grown. The POLL's locals
(`scan`, `rxFrame`, `freeCount`) and the model's inputs may differ. -/
structure Kept (s t : State) : Prop where
  cfg : t.cfg = s.cfg
  buf : t.buf = s.buf
  head : t.head = s.head
  tail : t.tail = s.tail
  version : t.version = s.version
  initialized : t.initialized = s.initialized
  running : t.running = s.running
  derrPending : t.derrPending = s.derrPending
  derrCode : t.derrCode = s.derrCode
  ringLock : t.ringLock = s.ringLock
  sendLock : t.sendLock = s.sendLock
  txbuf : t.txbuf = s.txbuf
  sink : t.sink = s.sink
  events : s.events <+: t.events
  responses : s.responses <+: t.responses

/-- t agrees with s on the POLL's locals too: everything the invariant reads is the same. -/
structure Quiet (s t : State) : Prop extends Kept s t where
  scan : t.scan = s.scan
  rxFrame : t.rxFrame = s.rxFrame

namespace Kept

variable {s t u : State}

theorem refl (s : State) : Kept s s := by constructor <;> simp

theorem trans (h : Kept s t) (h' : Kept t u) : Kept s u where
  cfg := h'.cfg.trans h.cfg
  buf := h'.buf.trans h.buf
  head := h'.head.trans h.head
  tail := h'.tail.trans h.tail
  version := h'.version.trans h.version
  initialized := h'.initialized.trans h.initialized
  running := h'.running.trans h.running
  derrPending := h'.derrPending.trans h.derrPending
  derrCode := h'.derrCode.trans h.derrCode
  ringLock := h'.ringLock.trans h.ringLock
  sendLock := h'.sendLock.trans h.sendLock
  txbuf := h'.txbuf.trans h.txbuf
  sink := h'.sink.trans h.sink
  events := h.events.trans h'.events
  responses := h.responses.trans h'.responses

theorem emit (e : Event) (h : Kept s t) : Kept s (Machine.emit e t) := h.trans (by constructor <;> simp)

theorem setScan (o : Option Scan) (h : Kept s t) : Kept s (Machine.setScan o t) := h.trans (by constructor <;> simp)

theorem setRxFrame (F : Frame) (h : Kept s t) : Kept s (Machine.setRxFrame F t) := h.trans (by constructor <;> simp)

theorem pollEnd (sc : Scan) (st : Status) (r : Nat) (h : Kept s t) : Kept s (Machine.pollEnd sc st r t) :=
  h.trans (by constructor <;> simp)

theorem pollScan (sc : Scan) (h : Kept s t) : Kept s (Machine.pollScan sc t) := by
  obtain ⟨f, n, -, ⟨-, hend⟩ | ⟨i, -, hnext⟩⟩ := pollScan_cases sc t
  · rw [hend]
    exact h.trans (by constructor <;> simp)
  · rw [hnext]
    exact h.trans (by constructor <;> simp)

theorem drawn (s : State) : Kept s (Machine.drawn s) := by constructor <;> simp

/-- Releasing ring_lock after a micro-step that kept everything while it held the lock. -/
theorem release (h : Kept s t) : Kept (setRingLock .free s) (setRingLock .free t) where
  __ := h
  ringLock := rfl

end Kept

/-- An acquisition of ring_lock: busy after the draw, or the body between taking the free lock and releasing it. -/
theorem withRingLock_cases (busy body : State → State) (s : State) :
    withRingLock busy body s = busy (drawn s) ∨
      s.ringLock = .free ∧ withRingLock busy body s = setRingLock .free (body (setRingLock .held (drawn s))) := by
  cases hl : s.ringLock
  · rcases ringReady_or_fails hl with h | h
    · exact .inr ⟨rfl, withRingLock_ready h⟩
    · exact .inl (withRingLock_busy h)
  · exact .inl (by simp [withRingLock, hl])

theorem withSendLock_cases (busy body : State → State) (s : State) :
    withSendLock busy body s = busy (drawn s) ∨
      s.sendLock = .free ∧ withSendLock busy body s = setSendLock .free (body (setSendLock .held (drawn s))) := by
  cases hl : s.sendLock
  · rcases sendReady_or_fails hl with h | h
    · exact .inr ⟨rfl, withSendLock_ready h⟩
    · exact .inl (withSendLock_busy h)
  · exact .inl (by simp [withSendLock, hl])

/-! ### The micro-steps of the POLL -/

/-- What a turn of the POLL does to the fields of `Kept`: nothing, one discard (P3, P4), or the first-poll clear (P1). -/
inductive PollEffect (s t : State) : Prop
  | kept (h : Kept s t)
  | discard (n : Nat) (h : Kept (ringDiscard n s) t)
  | clear (sc : Scan) (hscan : s.scan = some sc) (hphase : sc.phase = .start)
      (h : Kept (setRunning (ringDiscard (dataSize s) s)) t)

theorem kept_hold {s : State} (hl : s.ringLock = .free) : Kept s (setRingLock .free (setRingLock .held (drawn s))) := by
  constructor <;> simp [hl]

theorem kept_discard_hold {s : State} (hl : s.ringLock = .free) (n : Nat) :
    Kept (ringDiscard n s) (setRingLock .free (ringDiscard n (setRingLock .held (drawn s)))) := by
  constructor <;> simp [hl]

/-- A micro-step has the effect its body has, when the lock is taken; a busy lock ends the POLL and keeps the rest. -/
theorem microStep_effect {sc : Scan} {st : Status} {r : Nat} {body : State → State} {s : State}
    (hbody : s.ringLock = .free → PollEffect s (setRingLock .free (body (setRingLock .held (drawn s))))) :
    PollEffect s (withRingLock (pollEnd sc st r) body s) := by
  rcases withRingLock_cases (pollEnd sc st r) body s with h | ⟨hl, h⟩ <;> rw [h]
  · exact .kept ((Kept.drawn s).pollEnd sc st r)
  · exact hbody hl

theorem pollClear_effect {s : State} {sc : Scan} (hscan : s.scan = some sc) (hphase : sc.phase = .start) :
    PollEffect s (pollClear sc s) :=
  microStep_effect fun hl => .clear sc hscan hphase (by constructor <;> simp [hl])

theorem pollPeek_effect (s : State) (sc : Scan) : PollEffect s (pollPeek sc s) := by
  refine microStep_effect fun hl => .kept ((kept_hold hl).trans (Kept.release ?_))
  dsimp only
  split
  · exact (Kept.refl _).pollEnd _ _ _
  · split
    · exact ((Kept.refl _).emit _).setScan _
    · exact ((Kept.refl _).emit _).pollScan _

theorem pollResync_effect (s : State) (sc : Scan) : PollEffect s (pollResync sc s) :=
  microStep_effect fun hl => .discard sc.pos ((kept_discard_hold hl _).trans ((Kept.refl _).pollScan _).release)

theorem pollFrame_effect (s : State) (sc : Scan) : PollEffect s (pollFrame sc s) := by
  refine microStep_effect fun hl => ?_
  dsimp only
  split
  · exact .kept ((kept_hold hl).trans ((Kept.refl _).pollScan _).release)
  · exact .discard _ ((kept_discard_hold hl _).trans ((((Kept.refl _).setRxFrame _).emit _).pollScan _).release)

theorem pollTurn_effect (s : State) : PollEffect s (pollTurn s) := by
  unfold pollTurn
  cases hscan : s.scan with
  | none => exact .kept (.refl s)
  | some sc =>
    dsimp only
    cases hphase : sc.phase with
    | start =>
      dsimp only
      split
      · exact pollPeek_effect s sc
      · exact pollClear_effect hscan hphase
    | resync => exact pollResync_effect s sc
    | frame => exact pollFrame_effect s sc

/-! ### The commands -/

namespace Quiet

variable {s t u : State}

theorem refl (s : State) : Quiet s s := by constructor <;> simp [Kept.refl]

theorem trans (h : Quiet s t) (h' : Quiet t u) : Quiet s u :=
  ⟨h.toKept.trans h'.toKept, h'.scan.trans h.scan, h'.rxFrame.trans h.rxFrame⟩

theorem drawn (s : State) : Quiet s (Machine.drawn s) := ⟨.drawn s, by simp, by simp⟩

theorem emit (e : Event) (h : Quiet s t) : Quiet s (Machine.emit e t) := ⟨h.toKept.emit e, h.scan, h.rxFrame⟩

theorem respond (st : Status) (r : Word16) (d : Bytes) (h : Quiet s t) : Quiet s (Machine.respond st r d t) :=
  h.trans ⟨by constructor <;> simp, rfl, rfl⟩

theorem reject (st : Status) (h : Quiet s t) : Quiet s (Machine.reject st t) := h.respond st 0 []

theorem taking (s : State) (l : List Input) (c : Nat) : Quiet s { s with inputs := l, caller := c } :=
  ⟨by constructor <;> simp, rfl, rfl⟩

theorem release (h : Quiet s t) : Quiet (setRingLock .free s) (setRingLock .free t) := ⟨h.toKept.release, h.scan, h.rxFrame⟩

theorem releaseSend (h : Quiet s t) : Quiet (setSendLock .free s) (setSendLock .free t) where
  __ := h
  sendLock := rfl

/-- What `Quiet` keeps is all the invariant reads. -/
theorem inv (h : Quiet s t) (hs : s.Inv) : t.Inv :=
  hs.congr h.cfg h.buf h.head h.tail h.initialized h.running h.ringLock h.sendLock h.scan h.rxFrame h.txbuf

end Quiet

/-- The locals of a POLL that has passed its entry checks (41_transport.md R170). -/
def startedPoll (issuer : Nat) : Scan :=
  { issuer := issuer, phase := .start, window := [], pos := 0, base := 0, count := 0 }

/-- What a command does beyond events, responses and draws: nothing, or the one change it is for. -/
inductive CommandEffect (s t : State) : Instr → Prop
  | quiet (i : Instr) (h : Quiet s t) : CommandEffect s t i
  | init (hinit : s.initialized = false) (h : Quiet (setInitialized s) t) : CommandEffect s t .init
  | report (h : Quiet (clearDerr s) t) : CommandEffect s t .poll
  | start (hinit : s.initialized = true) (h : Quiet (setScan (some (startedPoll s.caller)) s) t) : CommandEffect s t .poll
  | send (i : Instr) (hi : i.opcode = .send) (B out : Bytes) (h : Quiet (sinkAppend out (storeTx B s)) t) : CommandEffect s t i
  | enqueue (i : Instr) (D : Bytes) (h : Quiet (ringEnqueue D s) t) : CommandEffect s t i
  | discard (i : Instr) (n : Nat) (h : Quiet (ringDiscard n s) t) : CommandEffect s t i

theorem quiet_hold {s : State} (hl : s.ringLock = .free) : Quiet s (setRingLock .free (setRingLock .held (drawn s))) :=
  ⟨kept_hold hl, by simp, by simp⟩

theorem quiet_discard_hold {s : State} (hl : s.ringLock = .free) (n : Nat) :
    Quiet (ringDiscard n s) (setRingLock .free (ringDiscard n (setRingLock .held (drawn s)))) :=
  ⟨kept_discard_hold hl n, by simp, by simp⟩

theorem quiet_enqueue_hold {s : State} (hl : s.ringLock = .free) (D : Bytes) :
    Quiet (ringEnqueue D s) (setRingLock .free (ringEnqueue D (setRingLock .held (drawn s)))) :=
  ⟨by constructor <;> simp [hl, ringEnqueue_events], by simp, by simp⟩

theorem execInit_effect {s t : State} (h : execInit s = .next t) : CommandEffect s t .init := by
  unfold execInit at h
  split at h
  · cases h
    exact .quiet _ ((Quiet.refl s).reject _)
  · rename_i hinit
    cases h
    exact .init (eq_false_of_ne_true hinit) (((Quiet.refl _).emit _).respond _ _ _)

theorem execPoll_effect {s t : State} (h : execPoll s = .next t) : CommandEffect s t .poll := by
  unfold execPoll at h
  split at h
  · cases h; exact .quiet _ ((Quiet.refl s).reject _)
  · rename_i hinit
    split at h
    · cases h; exact .quiet _ ((Quiet.refl s).reject _)
    · split at h
      · cases h; exact .report (((Quiet.refl _).emit _).respond _ _ _)
      · cases h; exact .start (by simpa using hinit) (.refl _)

/-- The send path stores the bounded frame, and passes it or nothing to the sink (41_transport.md R188 to R191). -/
theorem sendPacked_quiet (packed : Bytes) (s : State) :
    ∃ out, Quiet (sinkAppend out (storeTx (boundTx s.cfg packed) s)) (sendPacked packed s) := by
  unfold sendPacked
  dsimp only
  split
  · exact ⟨boundTx s.cfg packed, by constructor <;> simp, by simp, by simp⟩
  · exact ⟨[], by constructor <;> simp, by simp, by simp⟩

theorem quiet_send_hold {s : State} (hl : s.sendLock = .free) (B out : Bytes) :
    Quiet (sinkAppend out (storeTx B s)) (setSendLock .free (sinkAppend out (storeTx B (setSendLock .held (drawn s))))) :=
  ⟨by constructor <;> simp [hl], by simp, by simp⟩

theorem send_effect {i : Instr} (hi : i.opcode = .send) (packed : Bytes) (s : State) :
    CommandEffect s (send packed s) i := by
  unfold send
  split
  · exact .quiet _ ((Quiet.refl s).reject _)
  · rcases withSendLock_cases (reject .lockBusy) (sendPacked packed) s with h | ⟨hl, h⟩ <;> rw [h]
    · exact .quiet _ ((Quiet.drawn s).reject _)
    · obtain ⟨out, hq⟩ := sendPacked_quiet packed (setSendLock .held (drawn s))
      exact .send _ hi _ out ((quiet_send_hold hl _ out).trans hq.releaseSend)

/-- A command under ring_lock has the effect its body has, when the lock is taken; the busy answer is quiet. -/
theorem ringLocked_effect {i : Instr} {body : State → State} {s : State}
    (hbody : s.ringLock = .free → CommandEffect s (setRingLock .free (body (setRingLock .held (drawn s)))) i) :
    CommandEffect s (withRingLock (reject .lockBusy) body s) i := by
  rcases withRingLock_cases (reject .lockBusy) body s with h | ⟨hl, h⟩ <;> rw [h]
  · exact .quiet _ ((Quiet.drawn s).reject _)
  · exact hbody hl

theorem execReadHook_effect {chunk : Bytes} {s t : State} (h : execReadHook chunk s = .next t) :
    CommandEffect s t (.readHook chunk) := by
  cases h
  refine ringLocked_effect fun hl => ?_
  dsimp only
  split
  · exact .quiet _ ((quiet_hold hl).trans (((Quiet.refl _).emit _).reject _).release)
  · exact .enqueue _ chunk ((quiet_enqueue_hold hl chunk).trans ((Quiet.refl _).respond _ _ _).release)

/-- What each command can do, said once. -/
theorem exec_effect {i : Instr} {s t : State} (h : exec i s = .next t) : CommandEffect s t i := by
  have answer (st : Status) (r : Word16) (d : Bytes) : CommandEffect s (respond st r d s) i :=
    .quiet _ ((Quiet.refl s).respond st r d)
  have answerHeld (st : Status) (r : Word16) (d : Bytes) (hl : s.ringLock = .free) :
      CommandEffect s (setRingLock .free (respond st r d (setRingLock .held (drawn s)))) i :=
    .quiet _ ((quiet_hold hl).trans ((Quiet.refl _).respond st r d).release)
  have discardHeld (n : Nat) (st : Status) (r : Word16) (d : Bytes) (hl : s.ringLock = .free) :
      CommandEffect s (setRingLock .free (respond st r d (ringDiscard n (setRingLock .held (drawn s))))) i :=
    .discard _ n ((quiet_discard_hold hl n).trans ((Quiet.refl _).respond st r d).release)
  cases i with
  | init => exact execInit_effect h
  | poll => exact execPoll_effect h
  | sendCrc cmd payload =>
    simp only [exec, execSendCrc] at h
    split at h <;> cases h
    exact send_effect rfl _ s
  | sendSlip body =>
    simp only [exec, execSendSlip] at h
    split at h <;> cases h
    exact send_effect rfl _ s
  | readHook chunk => exact execReadHook_effect h
  | regRead r => cases h; exact answer _ _ _
  | ringEnqueue data =>
    cases h
    exact ringLocked_effect fun hl =>
      .enqueue _ data ((quiet_enqueue_hold hl data).trans ((Quiet.refl _).respond _ _ _).release)
  | ringDequeue n => cases h; exact ringLocked_effect (discardHeld _ _ _ _)
  | ringPeek n => cases h; exact ringLocked_effect (answerHeld _ _ _)
  | ringDiscard n => cases h; exact ringLocked_effect (discardHeld _ _ _ _)
  | ringRemaining => cases h; exact ringLocked_effect (answerHeld _ _ _)
  | ringDataSize => cases h; exact ringLocked_effect (answerHeld _ _ _)
  | crc16Compute data => cases h; exact answer _ _ _
  | crcPack cmd payload =>
    simp only [exec, execCrcPack] at h
    split at h <;> cases h <;> exact answer _ _ _
  | crcUnpack data =>
    simp only [exec, execCrcUnpack] at h
    split at h <;> cases h <;> exact answer _ _ _
  | slipPack body =>
    simp only [exec, execSlipPack] at h
    split at h <;> cases h <;> exact answer _ _ _
  | slipUnpack data =>
    simp only [exec, execSlipUnpack] at h
    split at h <;> cases h <;> exact answer _ _ _
  | slipChecksum data => cases h; exact answer _ _ _

/-! ### Steps -/

/-- What a step does, by what stands first in the schedule: a turn of the POLL, RAISE_DERR, an ILLEGAL command, a command. -/
inductive StepEffect (s t : State) : Prop
  | poll (rest : List Input) (ht : t = pollTurn { s with inputs := rest })
  | raise (code : Byte) (rest : List Input) (hs : s.inputs = .raiseDerr code :: rest)
      (ht : t = raiseDerr code { s with inputs := rest })
  | illegal (h : Quiet s t)
  | command (issuer : Nat) (w : Word32) (din : Bytes) (rest : List Input) (i : Instr)
      (hs : s.inputs = .command issuer w din :: rest) (hd : decode s.cfg.codec w din = .ok i)
      (h : CommandEffect { s with inputs := rest, caller := issuer } t i)

theorem step_effect {s t : State} (h : step s = .next t) : StepEffect s t := by
  obtain ⟨-, ⟨-, ht⟩ | ⟨rest, -, ht⟩ | ⟨-, -, -, -, -, -, ht⟩ | ⟨code, rest, hs, ht⟩ |
    ⟨issuer, w, din, rest, hs, -, ⟨e, -, ht⟩ | ⟨i, hd, he⟩⟩⟩ := step_cases h
  · exact .poll s.inputs ht
  · exact .poll rest ht
  · exact .poll s.inputs ht
  · exact .raise code rest hs ht
  · exact .illegal (ht ▸ (Quiet.taking s rest issuer).reject _)
  · exact .command issuer w din rest i hs hd (exec_effect he)

end Sys2Proof.Machine

/-! PROOF. Every step keeps `State.Inv`: each change a step can make keeps it. -/

namespace Sys2Proof.Machine

namespace State.Inv

variable {s : State}

/-! ### The changes a command can make -/

theorem setInitialized (h : s.Inv) (hinit : s.initialized = false) : (Machine.setInitialized s).Inv where
  __ := h
  ring := h.ring.congr rfl rfl rfl rfl
  running_initialized _ := rfl
  scan_ok sc hsc := absurd (h.scan_ok sc hsc).1 (by simp [hinit])

theorem clearDerr (h : s.Inv) : (Machine.clearDerr s).Inv := h.congr rfl rfl rfl rfl rfl rfl rfl rfl rfl rfl rfl

theorem startPoll (h : s.Inv) (hinit : s.initialized = true) (issuer : Nat) :
    (Machine.setScan (some (startedPoll issuer)) s).Inv where
  __ := h
  ring := h.ring.congr rfl rfl rfl rfl
  scan_ok := by
    rintro sc ⟨⟩
    exact ⟨hinit, rfl, rfl, rfl, rfl⟩

theorem sendBytes (h : s.Inv) (B out : Bytes) : (sinkAppend out (storeTx B s)).Inv where
  __ := h
  ring := h.ring.congr rfl rfl rfl rfl
  txbuf_wf := Memory.writeAll_wf h.txbuf_wf _ _
  txbuf_in := by
    obtain ⟨-, -, hmin, -, -, htx⟩ := legal_bounds h.legal
    exact Memory.writeAll_within (by omega) h.txbuf_in _ _

/-- A ring in order, everything else of the invariant as before. -/
theorem withRingOk {t : State} (h : s.Inv) (hr : RingOk t) (hring : t.ringLock = s.ringLock) (hcfg : t.cfg = s.cfg)
    (hinit : t.initialized = s.initialized) (hrun : t.running = s.running) (hsend : t.sendLock = s.sendLock)
    (hscan : t.scan = s.scan) (hrx : t.rxFrame = s.rxFrame) (htx : t.txbuf = s.txbuf) : t.Inv :=
  (h.withRing hr hcfg hinit hrun hsend hscan hrx htx).congr rfl rfl rfl rfl rfl rfl (hring.trans h.ring_free) rfl rfl rfl rfl

theorem ringEnqueue (h : s.Inv) (D : Bytes) : (Machine.ringEnqueue D s).Inv := by
  apply h.withRingOk (h.ring.ringEnqueue h.two_le D) <;> simp

theorem ringDiscard (h : s.Inv) (n : Nat) : (Machine.ringDiscard n s).Inv :=
  h.withRingOk (h.ring.ringDiscard h.two_le n) rfl rfl rfl rfl rfl rfl rfl rfl

theorem commandEffect {t : State} {i : Instr} (h : s.Inv) (he : CommandEffect s t i) : t.Inv := by
  cases he with
  | quiet _ hq => exact hq.inv h
  | init hinit hq => exact hq.inv (h.setInitialized hinit)
  | report hq => exact hq.inv h.clearDerr
  | start hinit hq => exact hq.inv (h.startPoll hinit _)
  | send _ _ B out hq => exact hq.inv (h.sendBytes B out)
  | enqueue _ D hq => exact hq.inv (h.ringEnqueue D)
  | discard _ n hq => exact hq.inv (h.ringDiscard n)

/-! ### The micro-steps of the POLL -/

theorem pollClear (h : s.Inv) {sc : Scan} (hscan : s.scan = some sc) (hphase : sc.phase = .start) :
    (Machine.pollClear sc s).Inv := by
  refine h.withRingLock (fun t ht _ _ _ _ => ht.pollEnd _ _ _) fun t ht htscan _ _ _ => ?_
  obtain ⟨hinit, hok⟩ := ht.scan_ok sc (htscan.trans hscan)
  exact { ht with
    ring := (ht.ring.ringDiscard ht.two_le _).congr rfl rfl rfl rfl
    ring_free := rfl
    running_initialized := fun _ => hinit
    scan_ok := fun sc' hsc' => by
      obtain rfl : sc = sc' := Option.some.inj ((htscan.trans hscan).symm.trans hsc')
      exact ⟨hinit, by simpa [Scan.Ok, hphase] using hok⟩ }

theorem pollPeek (h : s.Inv) {sc : Scan} (hscan : s.scan = some sc) (hrun : s.running = true) :
    (Machine.pollPeek sc s).Inv := by
  refine h.withRingLock (fun t ht _ _ _ _ => ht.pollEnd _ _ _) fun t ht htscan htrun _ _ => ?_
  obtain ⟨hinit, -⟩ := ht.scan_ok sc (htscan.trans hscan)
  have hrun' := htrun.trans hrun
  have hring : RingOk (setRingLock .held t) := ht.ring.congr rfl rfl rfl rfl
  have hW : (ringPeek t.cfg.maxLen (setRingLock .held t)).length ≤ t.cfg.maxLen := by
    rw [ringPeek_length]; exact Nat.min_le_left _ _
  dsimp only
  split
  · exact (ht.pollEnd sc .ok 0).congr rfl rfl rfl rfl rfl rfl (ht.ring_free.symm) rfl rfl rfl rfl
  · split
    · rename_i hk
      exact { ht with
        ring := hring.congr rfl rfl rfl rfl
        ring_free := rfl
        scan_ok := by
          rintro sc' ⟨⟩
          exact ⟨hinit, hrun', hW, hk, resyncCount_le _ _, rfl, rfl⟩ }
    · exact pollScan_inv ht.legal (hring.congr rfl rfl rfl rfl) ht.txbuf_wf ht.txbuf_in ht.send_free ht.running_initialized
        ht.rx_fits hinit hrun' hW (Nat.le_refl _) (Nat.le_refl _)

theorem pollResync (h : s.Inv) {sc : Scan} (hscan : s.scan = some sc) (hphase : sc.phase = .resync) :
    (Machine.pollResync sc s).Inv := by
  refine h.withRingLock (fun t ht _ _ _ _ => ht.pollEnd _ _ _) fun t ht htscan _ _ _ => ?_
  obtain ⟨hinit, hok⟩ := ht.scan_ok sc (htscan.trans hscan)
  simp only [Scan.Ok, hphase] at hok
  obtain ⟨hrun, hW, -, -, -, -⟩ := hok
  exact pollScan_inv ht.legal ((ht.ring.ringDiscard ht.two_le _).congr rfl rfl rfl rfl) ht.txbuf_wf ht.txbuf_in ht.send_free
    ht.running_initialized ht.rx_fits hinit hrun hW (Nat.le_refl _) (Nat.zero_le _)

theorem pollFrame (h : s.Inv) {sc : Scan} (hscan : s.scan = some sc) (hphase : sc.phase = .frame) :
    (Machine.pollFrame sc s).Inv := by
  refine h.withRingLock (fun t ht _ _ _ _ => ht.pollEnd _ _ _) fun t ht htscan _ _ _ => ?_
  obtain ⟨hinit, hok⟩ := ht.scan_ok sc (htscan.trans hscan)
  simp only [Scan.Ok, hphase] at hok
  obtain ⟨hrun, hW, hbase, hcount, L, F, hu, hL, -⟩ := hok
  simp only [setRingLock_cfg, hu]
  exact pollScan_inv ht.legal ((ht.ring.ringDiscard ht.two_le _).congr rfl rfl rfl rfl) ht.txbuf_wf ht.txbuf_in ht.send_free
    ht.running_initialized (unpack_fits hu) hinit hrun hW (Nat.le_refl _) (by simp; omega)

theorem pollTurn (h : s.Inv) : (Machine.pollTurn s).Inv := by
  unfold Machine.pollTurn
  cases hscan : s.scan with
  | none => exact h
  | some sc =>
    dsimp only
    cases hphase : sc.phase with
    | start =>
      dsimp only
      split
      · exact h.pollPeek hscan ‹_›
      · exact h.pollClear hscan hphase
    | resync => exact h.pollResync hscan hphase
    | frame => exact h.pollFrame hscan hphase

end State.Inv

/-- Settles O14, by the changes a step can make (`step_effect`). -/
theorem stepKeepsInv : Obligations.StepKeepsInv := by
  intro s t hs h
  have taking (rest : List Input) : ({ s with inputs := rest } : State).Inv := hs.taking rest s.caller
  cases step_effect h with
  | poll rest ht => exact ht ▸ (taking rest).pollTurn
  | raise code rest _ ht => exact ht ▸ (taking rest).raiseDerr code
  | illegal hq => exact hq.inv hs
  | command issuer w din rest i _ _ he => exact (hs.taking rest issuer).commandEffect he

end Sys2Proof.Machine

/-! PROOF. The whole-machine rules of the state: `version`, the streams and the flags. -/

namespace Sys2Proof

/-! ### The fields of a word that decodes -/

theorem commandOf_ok {codec : Codec} {op : Opcode} {a8 : Byte} {n : Word16} {din : Bytes} {i : Instr}
    (h : commandOf codec op a8 n din = .ok i) : i.opcode = op := by
  cases op with
  | send => cases codec <;> cases h <;> rfl
  | regRead =>
    simp only [commandOf] at h
    split at h <;> cases h
    rfl
  | _ => cases h; rfl

/-- What R96 has checked of a word and DIN that decode. -/
theorem decode_ok {codec : Codec} {w : Word32} {din : Bytes} {i : Instr} (h : decode codec w din = .ok i) :
    i.opcode.byte = opcodeField w ∧ (i.opcode.usesArg8 codec = false → arg8Field w = 0) ∧
      (i.opcode.usesCount = false → countField w = 0) ∧ (i.opcode.isData = false → din = []) := by
  unfold decode at h
  split at h
  · cases h
  · rename_i op hop
    split_ifs at h with harg hcount hlen hdin
    obtain rfl := commandOf_ok h
    refine ⟨Opcode.byte_of_ofByte hop, fun hu => ?_, fun hu => ?_, fun hu => ?_⟩
    · simpa [hu] using harg
    · simpa [hu] using hcount
    · simpa [hu] using hdin

/-- A command without operands is its opcode in an otherwise zero word, with an empty DIN. -/
theorem decode_ok_plain {codec : Codec} {w : Word32} {din : Bytes} {i : Instr} (h : decode codec w din = .ok i)
    (harg : i.opcode.usesArg8 codec = false) (hcount : i.opcode.usesCount = false) (hdata : i.opcode.isData = false) :
    w = packWord i.opcode 0 0 ∧ din = [] := by
  obtain ⟨hop, ha, hc, hd⟩ := decode_ok h
  refine ⟨?_, hd hdata⟩
  rw [← packWord_fields hop, ha harg, hc hcount]

theorem decode_ok_init {codec : Codec} {w : Word32} {din : Bytes} (h : decode codec w din = .ok .init) :
    w = 0x01000000 ∧ din = [] :=
  decode_ok_plain h rfl rfl rfl

theorem decode_ok_poll {codec : Codec} {w : Word32} {din : Bytes} (h : decode codec w din = .ok .poll) :
    w = 0x02000000 ∧ din = [] :=
  decode_ok_plain h rfl rfl rfl

end Sys2Proof

namespace Sys2Proof.Machine

/-! ### version (R27) -/

/-- `version` counts one ring change, or none. -/
def VersionCounts (s t : State) : Prop :=
  t.version = if t.head = s.head ∧ t.tail = s.tail then s.version else s.version + 1

theorem VersionCounts.refl (s : State) : VersionCounts s s := by simp [VersionCounts]

theorem Kept.versionCounts {s u t : State} (h : Kept u t) (hu : VersionCounts s u) : VersionCounts s t := by
  rwa [VersionCounts, h.version, h.head, h.tail]

/-- An index moved on by fewer than C places stays where it is exactly when it is moved by none. -/
theorem word16_add_mod_eq_iff {p : Params} {x : Word16} {a : Nat} (hx : x.toNat < p.C) (ha : a < p.C) :
    word16 ((x.toNat + a) % p.C) = x ↔ a = 0 := by
  have hC : p.C < 65536 := p.capacity.isLt
  have hmod := Nat.mod_lt (x.toNat + a) (show 0 < p.C by omega)
  constructor
  · intro h
    have h' : (x.toNat + a) % p.C = (x.toNat + 0) % p.C := by
      rw [← word16_toNat (show (x.toNat + a) % p.C < 65536 by omega), h, Nat.add_zero, Nat.mod_eq_of_lt hx]
    exact add_mod_inj ha (by omega) h'
  · rintro rfl
    simp [word16, Nat.mod_eq_of_lt hx]

theorem VersionCounts.ringDiscard {s : State} (hC : 2 ≤ s.cfg.C) (h : RingOk s) (n : Nat) :
    VersionCounts s (ringDiscard n s) := by
  have ha : takeCount n s < s.cfg.C := (takeCount_le n s).trans_lt (dataSize_lt hC)
  simp [VersionCounts, word16_add_mod_eq_iff h.head_lt ha, bumpVersion, Nat.pos_iff_ne_zero, ite_not]

theorem VersionCounts.ringEnqueue {s : State} (hC : 2 ≤ s.cfg.C) (h : RingOk s) (D : Bytes) :
    VersionCounts s (ringEnqueue D s) := by
  have ha : enqueueCount D s < s.cfg.C := by
    have := enqueueCount_le D s
    unfold remainingSize at this
    omega
  simp [VersionCounts, word16_add_mod_eq_iff h.tail_lt ha, bumpVersion, Nat.pos_iff_ne_zero, ite_not]

theorem PollEffect.versionCounts {s t : State} (h : PollEffect s t) (hs : s.Inv) : VersionCounts s t := by
  cases h with
  | kept hk => exact hk.versionCounts (.refl s)
  | discard n hk => exact hk.versionCounts (.ringDiscard hs.two_le hs.ring n)
  | clear _ _ _ hk => exact hk.versionCounts (VersionCounts.ringDiscard hs.two_le hs.ring _)

theorem CommandEffect.versionCounts {s t : State} {i : Instr} (h : CommandEffect s t i) (hs : s.Inv) :
    VersionCounts s t := by
  have same : VersionCounts s s := .refl s
  cases h with
  | quiet _ hq => exact hq.versionCounts same
  | init _ hq => exact hq.versionCounts same
  | report hq => exact hq.versionCounts same
  | start _ hq => exact hq.versionCounts same
  | send _ _ _ _ hq => exact hq.versionCounts same
  | enqueue _ D hq => exact hq.versionCounts (.ringEnqueue hs.two_le hs.ring D)
  | discard _ n hq => exact hq.versionCounts (.ringDiscard hs.two_le hs.ring n)

/-- Settles O15: a step makes at most one ring change, and each bumps `version` when it moves an index. -/
theorem versionCountsRingChanges : Obligations.VersionCountsRingChanges := by
  intro s t hs h
  show VersionCounts s t
  cases step_effect h with
  | poll rest ht => exact ht ▸ (pollTurn_effect _).versionCounts (hs.taking rest s.caller)
  | raise code rest _ ht => simp [ht, VersionCounts]
  | illegal hq => exact hq.versionCounts (.refl s)
  | command issuer _ _ rest _ _ _ he => exact he.versionCounts (hs.taking rest issuer)

/-! ### The streams (R34, R35) -/

/-- The three streams have only grown. -/
structure StreamsGrow (s t : State) : Prop where
  sink : s.sink <+: t.sink
  events : s.events <+: t.events
  responses : s.responses <+: t.responses

theorem StreamsGrow.of_eq {s t : State} (hs : t.sink = s.sink) (he : t.events = s.events)
    (hr : t.responses = s.responses) : StreamsGrow s t := by
  constructor <;> simp [*]

theorem StreamsGrow.ringEnqueue (D : Bytes) (s : State) : StreamsGrow s (ringEnqueue D s) := by
  refine ⟨by simp, ?_, by simp⟩
  rw [ringEnqueue_events]
  split <;> simp

theorem Kept.streamsGrow {s u t : State} (h : Kept u t) (hu : StreamsGrow s u) : StreamsGrow s t :=
  ⟨h.sink ▸ hu.sink, hu.events.trans h.events, hu.responses.trans h.responses⟩

theorem PollEffect.streams {s t : State} (h : PollEffect s t) : StreamsGrow s t ∧ t.sink = s.sink := by
  cases h with
  | kept hk => exact ⟨hk.streamsGrow (.of_eq rfl rfl rfl), hk.sink⟩
  | discard _ hk => exact ⟨hk.streamsGrow (.of_eq rfl rfl rfl), hk.sink⟩
  | clear _ _ _ hk => exact ⟨hk.streamsGrow (.of_eq rfl rfl rfl), hk.sink⟩

/-- Only SEND gives the sink anything. -/
theorem CommandEffect.streams {s t : State} {i : Instr} (h : CommandEffect s t i) :
    StreamsGrow s t ∧ (t.sink ≠ s.sink → i.opcode = .send) := by
  cases h with
  | quiet _ hq => exact ⟨hq.streamsGrow (.of_eq rfl rfl rfl), absurd hq.sink⟩
  | init _ hq => exact ⟨hq.streamsGrow (.of_eq rfl rfl rfl), absurd hq.sink⟩
  | report hq => exact ⟨hq.streamsGrow (.of_eq rfl rfl rfl), absurd hq.sink⟩
  | start _ hq => exact ⟨hq.streamsGrow (.of_eq rfl rfl rfl), absurd hq.sink⟩
  | send _ hi _ _ hq => exact ⟨hq.streamsGrow (by constructor <;> simp), fun _ => hi⟩
  | enqueue _ D hq => exact ⟨hq.streamsGrow (.ringEnqueue D s), absurd (hq.sink.trans (ringEnqueue_sink D s))⟩
  | discard _ _ hq => exact ⟨hq.streamsGrow (.of_eq rfl rfl rfl), absurd hq.sink⟩

/-- Settles O16: every change a step can make appends to the streams, and only SEND's to the sink. -/
theorem streamsOnlyGrow : Obligations.StreamsOnlyGrow := by
  intro s t h
  suffices hg : StreamsGrow s t ∧ (t.sink ≠ s.sink →
      ∃ issuer w din rest, s.inputs = .command issuer w din :: rest ∧ opcodeField w = 0x03) from
    ⟨hg.1.sink, hg.1.events, hg.1.responses, hg.2⟩
  cases step_effect h with
  | poll rest ht =>
    obtain ⟨hg, hsink⟩ := ht ▸ (pollTurn_effect { s with inputs := rest }).streams
    exact ⟨⟨hg.sink, hg.events, hg.responses⟩, absurd hsink⟩
  | raise code rest _ ht => exact ⟨by constructor <;> simp [ht], absurd (by simp [ht])⟩
  | illegal hq => exact ⟨hq.streamsGrow (.of_eq rfl rfl rfl), absurd hq.sink⟩
  | command issuer w din rest i hs hd he =>
    obtain ⟨hg, hsend⟩ := he.streams
    refine ⟨⟨hg.sink, hg.events, hg.responses⟩, fun hne => ⟨issuer, w, din, rest, hs, ?_⟩⟩
    rw [← (decode_ok hd).1, hsend hne]
    rfl

/-! ### The status flags (R28 to R31) -/

/-- The four flag fields of t are those of s. -/
structure FlagsSame (s t : State) : Prop where
  initialized : t.initialized = s.initialized
  derrPending : t.derrPending = s.derrPending
  derrCode : t.derrCode = s.derrCode
  running : t.running = s.running

theorem Kept.flagsSame {s t u : State} (h : Kept u t) (hu : FlagsSame s u) : FlagsSame s t :=
  ⟨h.initialized.trans hu.initialized, h.derrPending.trans hu.derrPending, h.derrCode.trans hu.derrCode,
    h.running.trans hu.running⟩

/-- Discarding all the stored bytes leaves the ring empty (R133). -/
theorem ringDiscard_all_head {s : State} (h : RingOk s) : (ringDiscard (dataSize s) s).head = s.tail := by
  simp [takeCount, head_add_dataSize h, word16]

/-- A turn of the POLL leaves the flags alone, or is the first-poll clear. -/
theorem PollEffect.flags {s t : State} (h : PollEffect s t) (hs : s.Inv) :
    FlagsSame s t ∨
      ∃ sc, s.scan = some sc ∧ sc.phase = .start ∧ FlagsSame (setRunning s) t ∧ t.head = t.tail := by
  cases h with
  | kept hk => exact .inl (hk.flagsSame ⟨rfl, rfl, rfl, rfl⟩)
  | discard _ hk => exact .inl (hk.flagsSame ⟨rfl, rfl, rfl, rfl⟩)
  | clear sc hscan hphase hk =>
    refine .inr ⟨sc, hscan, hphase, hk.flagsSame ⟨rfl, rfl, rfl, rfl⟩, ?_⟩
    rw [hk.head, hk.tail]
    exact ringDiscard_all_head hs.ring

/-- A command leaves the flags alone, or is the first INIT, or a POLL that reports the deferred error. -/
theorem CommandEffect.flags {s t : State} {i : Instr} (h : CommandEffect s t i) :
    FlagsSame s t ∨ (i = .init ∧ s.initialized = false ∧ FlagsSame (setInitialized s) t) ∨
      (i = .poll ∧ FlagsSame (clearDerr s) t) := by
  cases h with
  | quiet _ hq => exact .inl (hq.flagsSame ⟨rfl, rfl, rfl, rfl⟩)
  | init hinit hq => exact .inr (.inl ⟨rfl, hinit, hq.flagsSame ⟨rfl, rfl, rfl, rfl⟩⟩)
  | report hq => exact .inr (.inr ⟨rfl, hq.flagsSame ⟨rfl, rfl, rfl, rfl⟩⟩)
  | start _ hq => exact .inl (hq.flagsSame ⟨rfl, rfl, rfl, rfl⟩)
  | send _ _ _ _ hq => exact .inl (hq.flagsSame ⟨rfl, rfl, rfl, rfl⟩)
  | enqueue _ D hq => exact .inl (hq.flagsSame (by constructor <;> simp))
  | discard _ _ hq => exact .inl (hq.flagsSame ⟨rfl, rfl, rfl, rfl⟩)

/-- RAISE_DERR changes nothing while an error is pending; else it records its code (60_exceptions.md R275). -/
theorem raiseDerr_cases (code : Byte) (s : State) :
    raiseDerr code s = s ∨
      s.derrPending = false ∧ raiseDerr code s = { s with derrPending := true, derrCode := code } := by
  cases h : s.derrPending
  · exact .inr ⟨rfl, by simp [raiseDerr, h]⟩
  · exact .inl (by simp [raiseDerr, h])

/-- Settles O19: of all a step can do, four things touch a flag, and each touches those R28 to R31 allow it. -/
theorem flagsChangeByTheirRules : Obligations.FlagsChangeByTheirRules := by
  intro s t hs h
  cases step_effect h with
  | poll rest ht =>
    obtain hf | ⟨sc, hscan, hphase, hf, hempty⟩ := ht ▸ (pollTurn_effect { s with inputs := rest }).flags (hs.taking rest _)
    · exact ⟨absurd hf.initialized, absurd hf.derrPending, absurd hf.derrCode, absurd hf.running⟩
    · exact ⟨absurd hf.initialized, absurd hf.derrPending, absurd hf.derrCode,
        fun _ => .inl ⟨sc, hscan, hphase, hf.running, hempty⟩⟩
  | raise code rest hin ht =>
    obtain hr | ⟨hnone, hr⟩ := raiseDerr_cases code { s with inputs := rest } <;> rw [hr] at ht <;> subst ht
    · exact ⟨absurd rfl, absurd rfl, absurd rfl, absurd rfl⟩
    · exact ⟨absurd rfl, fun _ => .inl ⟨code, rest, hin, rfl, rfl⟩, fun _ => ⟨hnone, rfl⟩, absurd rfl⟩
  | illegal hq => exact ⟨absurd hq.initialized, absurd hq.derrPending, absurd hq.derrCode, absurd hq.running⟩
  | command issuer w din rest i hin hd he =>
    obtain hf | ⟨rfl, hinit, hf⟩ | ⟨rfl, hf⟩ := he.flags
    · exact ⟨absurd hf.initialized, absurd hf.derrPending, absurd hf.derrCode, absurd hf.running⟩
    · obtain ⟨rfl, rfl⟩ := decode_ok_init hd
      exact ⟨fun _ => ⟨issuer, rest, hin, hf.initialized⟩, absurd hf.derrPending, absurd hf.derrCode,
        fun _ => .inr ⟨issuer, rest, hin, hinit⟩⟩
    · obtain ⟨rfl, rfl⟩ := decode_ok_poll hd
      exact ⟨absurd hf.initialized, fun _ => .inr ⟨issuer, rest, hin, hf.derrPending⟩, absurd hf.derrCode,
        absurd hf.running⟩

/-! ### Reset -/

theorem dataSize_resetWith (p : Params) : dataSize (State.resetWith p) = 0 := by
  simp [dataSize, State.resetWith]

/-- Settles O12: the fields of `State.resetWith`, and an empty ring stores nothing. -/
theorem resetValues : Obligations.ResetValues := by
  intro p
  refine ⟨rfl, rfl, rfl, rfl, rfl, rfl, rfl, rfl, rfl, rfl, rfl, rfl, rfl, ?_⟩
  rw [stored_eq, dataSize_resetWith, Memory.readAll_zero]

theorem resetFrame_fits (codec : Codec) : (resetFrame codec).fits codec := by
  cases codec <;> simp [resetFrame, Frame.fits]

theorem ringOk_resetWith {p : Params} (h : 2 ≤ p.C) : RingOk (State.resetWith p) where
  head_lt := by simp [State.resetWith]; omega
  tail_lt := by simp [State.resetWith]; omega
  buf_wf := (resetWith_wf p).1
  buf_in := by simp [Memory.within, State.resetWith]
  written := by simp [dataSize_resetWith]

/-- Settles O13: nothing is stored, locked, running or scanned at reset. -/
theorem resetSatisfiesInv : Obligations.ResetSatisfiesInv := by
  intro p hp
  exact {
    legal := hp
    ring := ringOk_resetWith (two_le_C hp)
    txbuf_wf := (resetWith_wf p).2
    txbuf_in := by simp [Memory.within, State.resetWith]
    ring_free := rfl
    send_free := rfl
    running_initialized := by simp [State.resetWith]
    rx_fits := resetFrame_fits p.codec
    scan_ok := by simp [State.resetWith] }

/-! ### Registers (R37, R38) -/

theorem exec_regRead {r : Reg} {s : State} {v : Word16} (h : regValue s r = v) :
    exec (.regRead r) s = .next (answered .ok v [] s) := h ▸ rfl

theorem codecBit_eq (codec : Codec) : codecBit codec = if codec = .slip then 1 else 0 := by cases codec <;> rfl

theorem flagBit_getLsbD (b : Bool) {k : Nat} (hk : k < 16) (i : Nat) : (flagBit b k).getLsbD i = (b && decide (i = k)) := by
  cases b
  · simp [flagBit]
  · rw [Bool.eq_iff_iff]
    simp only [flagBit, if_true, BitVec.getLsbD_shiftLeft, BitVec.getLsbD_one, Bool.and_eq_true, Bool.not_eq_true',
      decide_eq_true_eq, decide_eq_false_iff_not, true_and]
    omega

/-- FLAGS bit by bit (R38). -/
theorem flagsWord_getLsbD (s : State) (i : Nat) :
    (flagsWord s).getLsbD i =
      (s.initialized && decide (i = 0) || s.running && decide (i = 1) || s.derrPending && decide (i = 2) ||
        s.pollActive && decide (i = 3)) := by
  simp [flagsWord, flagBit_getLsbD]

theorem version_halves (v : Word32) :
    v.toNat = (v.extractLsb' 16 16).toNat * 65536 + (v.extractLsb' 0 16).toNat := by
  have := v.isLt
  simp only [BitVec.extractLsb'_toNat, Nat.shiftRight_eq_div_pow]
  omega

theorem byte_append_toNat (a b : Byte) : (a ++ b).toNat = a.toNat * 256 + b.toNat := by
  rw [BitVec.toNat_append, ← Nat.shiftLeft_add_eq_or_of_lt b.isLt, Nat.shiftLeft_eq]

theorem byte_setWidth_toNat (b : Byte) : (b.setWidth 16).toNat = b.toNat :=
  BitVec.toNat_setWidth_of_le (by decide)

theorem flagsBits (s : State) :
    (flagsWord s).getLsbD 0 = s.initialized ∧ (flagsWord s).getLsbD 1 = s.running ∧
      (flagsWord s).getLsbD 2 = s.derrPending ∧ (flagsWord s).getLsbD 3 = s.pollActive ∧
      ∀ i ≥ 4, (flagsWord s).getLsbD i = false := by
  simp only [flagsWord_getLsbD]
  refine ⟨by simp, by simp, by simp, by simp, fun i hi => ?_⟩
  simp [show i ≠ 0 ∧ i ≠ 1 ∧ i ≠ 2 ∧ i ≠ 3 by omega]

/-- A block with a legal configuration reflects neither input nor output of its CRC (00_scope.md R8). -/
theorem crcReflect_eq_zero {s : State} (h : legal s.cfg = true) : regValue s .crcReflect = 0 := by
  obtain ⟨-, -, -, -, -, -, hin, hout, -⟩ := (legal_iff s.cfg).1 h
  simp [regValue, hin, hout, flagBit]

theorem word16_dataSize_toNat {s : State} (h : 2 ≤ s.cfg.C) : (word16 (dataSize s)).toNat = (stored s).length := by
  rw [stored_length, word16_toNat ((dataSize_lt h).trans s.cfg.capacity.isLt)]

/-- Settles O33: REG_READ answers `regValue`, read off register by register. -/
theorem regReadValues : Obligations.RegReadValues := by
  intro s hs
  exact ⟨exec_regRead rfl, exec_regRead rfl, exec_regRead rfl,
    ⟨_, exec_regRead rfl, byte_setWidth_toNat _⟩,
    exec_regRead (codecBit_eq _),
    exec_regRead rfl, exec_regRead rfl,
    ⟨_, _, exec_regRead rfl, exec_regRead rfl, version_halves _⟩,
    ⟨_, exec_regRead rfl, flagsBits s⟩,
    ⟨_, exec_regRead rfl, byte_setWidth_toNat _⟩,
    exec_regRead rfl, exec_regRead rfl, exec_regRead rfl, exec_regRead (crcReflect_eq_zero hs.legal),
    exec_regRead rfl,
    ⟨_, exec_regRead rfl, byte_append_toNat _ _⟩,
    exec_regRead rfl,
    ⟨_, exec_regRead rfl, word16_dataSize_toNat hs.two_le⟩⟩

end Sys2Proof.Machine

/-! PROOF. The memory rules (20_memory.md): what an enqueue during a POLL leaves alone, the draw of a lock, the commands that change
no state, and the send side apart from the receive side. -/

namespace Sys2Proof.Machine

/-! ### Enqueueing commands (R80) -/

/-- A command under ring_lock enqueues D or leaves the ring alone when its body does; the busy answer leaves the ring alone. -/
theorem ringLocked_enqueues {D : Bytes} {body : State → State} {s : State}
    (hbody : s.ringLock = .free → Quiet s (setRingLock .free (body (setRingLock .held (drawn s)))) ∨
      Quiet (ringEnqueue D s) (setRingLock .free (body (setRingLock .held (drawn s))))) :
    Quiet s (withRingLock (reject .lockBusy) body s) ∨
      Quiet (ringEnqueue D s) (withRingLock (reject .lockBusy) body s) := by
  rcases withRingLock_cases (reject .lockBusy) body s with h | ⟨hl, h⟩ <;> rw [h]
  · exact .inl ((Quiet.drawn s).reject _)
  · exact hbody hl

/-- RING_ENQUEUE and READ_HOOK do ring_enqueue, or nothing beyond events, responses and draws (40_ring.md R134, 41_transport.md
R161). -/
theorem exec_enqueues {i : Instr} {D : Bytes} {s t : State} (hi : i = .ringEnqueue D ∨ i = .readHook D)
    (h : exec i s = .next t) : Quiet s t ∨ Quiet (ringEnqueue D s) t := by
  rcases hi with rfl | rfl
  · cases h
    exact ringLocked_enqueues fun hl => .inr ((quiet_enqueue_hold hl D).trans ((Quiet.refl _).respond _ _ _).release)
  · cases h
    refine ringLocked_enqueues fun hl => ?_
    dsimp only
    split
    · exact .inl ((quiet_hold hl).trans (((Quiet.refl _).emit _).reject _).release)
    · exact .inr ((quiet_enqueue_hold hl D).trans ((Quiet.refl _).respond _ _ _).release)

theorem Kept.stored {s t : State} (h : Kept s t) : stored t = stored s := stored_congr h.cfg h.buf h.head h.tail

/-- Settles O60: ring_enqueue appends to the stored bytes (`stored_ringEnqueue`), and moves neither `head` nor the POLL. -/
theorem enqueueDuringPollIsSafe : Obligations.EnqueueDuringPollIsSafe := by
  rintro s t i hs - ⟨D, hi⟩ h
  rcases exec_enqueues hi h with hq | hq
  · exact ⟨by rw [hq.stored], hq.scan, hq.head⟩
  · refine ⟨?_, hq.scan.trans (ringEnqueue_scan D s), hq.head.trans (ringEnqueue_head D s)⟩
    rw [hq.stored, stored_ringEnqueue hs.two_le hs.ring]
    exact ⟨_, rfl⟩

/-! ### lock_fail() (R68) -/

/-- Under ANY an acquisition follows the draw that stands first. -/
theorem lockFail_any_cons {s : State} {b : Bool} {rest : List Bool} (h : s.cfg.lockFailMode = .any) (hd : s.draws = b :: rest) :
    lockFail s = b := by
  simp [lockFail, h, hd]

/-- Settles O22, by `lockFail_never` and `lockFail_any_cons`. -/
theorem lockFailureIsTheDraw : Obligations.LockFailureIsTheDraw :=
  fun _ => ⟨lockFail_never, fun _ h => lockFail_any_cons h rfl⟩

/-! ### The commands that change no state (R69) -/

theorem respond_eq_answered (st : Status) (r : Word16) (d : Bytes) (s : State) : respond st r d s = answered st r d s := rfl

theorem reject_eq_answered (st : Status) (s : State) : reject st s = answered st 0 [] s := rfl

/-- In every state of configuration p the command gives one and the same response, and does nothing else. -/
def AnswersFromConfig (p : Params) (i : Instr) : Prop :=
  ∃ st v d, ∀ s : State, s.cfg = p → exec i s = .next (answered st v d s)

theorem crc16Compute_answers (p : Params) (x : Bytes) : AnswersFromConfig p (.crc16Compute x) :=
  ⟨.ok, crc16 p x, [], by rintro s rfl; rfl⟩

theorem slipChecksum_answers (p : Params) (x : Bytes) : AnswersFromConfig p (.slipChecksum x) :=
  ⟨.ok, (slipChecksum x).setWidth 16, [], fun _ _ => rfl⟩

theorem crcPack_answers (p : Params) (cmd : Byte) (x : Bytes) : AnswersFromConfig p (.crcPack cmd x) := by
  by_cases hx : x.length > 255
  · exact ⟨.paramError, 0, [], fun s _ => by simp [exec, execCrcPack, hx, reject_eq_answered]⟩
  · refine ⟨.ok, word16 (crcPack p cmd x).length, crcPack p cmd x, ?_⟩
    rintro s rfl
    simp [exec, execCrcPack, hx, respond_eq_answered]

theorem crcUnpack_answers (p : Params) (x : Bytes) : AnswersFromConfig p (.crcUnpack x) := by
  cases hx : crcUnpack p x with
  | none =>
    refine ⟨.ok, 0, [], ?_⟩
    rintro s rfl
    simp [exec, execCrcUnpack, hx, respond_eq_answered]
  | some found =>
    obtain ⟨L, cmd, payload⟩ := found
    refine ⟨.ok, word16 L, [cmd, BitVec.ofNat 8 payload.length] ++ payload, ?_⟩
    rintro s rfl
    simp [exec, execCrcUnpack, hx, respond_eq_answered]

theorem slipPack_answers (p : Params) (x : Bytes) : AnswersFromConfig p (.slipPack x) := by
  by_cases hx : x.length = 0
  · exact ⟨.paramError, 0, [], fun s _ => by simp only [exec, execSlipPack, if_pos hx, reject_eq_answered]⟩
  · refine ⟨.ok, packedLength x (slipPack p x), slipPack p x, ?_⟩
    rintro s rfl
    simp only [exec, execSlipPack, if_neg hx, respond_eq_answered]

theorem slipUnpack_answers (p : Params) (x : Bytes) : AnswersFromConfig p (.slipUnpack x) := by
  cases hx : slipUnpack p x with
  | none =>
    refine ⟨.ok, 0, [], ?_⟩
    rintro s rfl
    simp [exec, execSlipUnpack, hx, respond_eq_answered]
  | some found =>
    obtain ⟨L, D⟩ := found
    refine ⟨.ok, word16 L, D, ?_⟩
    rintro s rfl
    simp [exec, execSlipUnpack, hx, respond_eq_answered]

/-- Settles O44: REG_READ answers `regValue`; each CRC and SLIP command computes its answer from the configuration and operands. -/
theorem pureCommandsChangeNothing : Obligations.PureCommandsChangeNothing := by
  refine ⟨fun s r => ⟨.ok, regValue s r, [], exec_regRead rfl⟩, ?_⟩
  rintro p i ⟨x, rfl | rfl | rfl | rfl | rfl | ⟨cmd, rfl⟩⟩
  · exact crc16Compute_answers p x
  · exact crcUnpack_answers p x
  · exact slipPack_answers p x
  · exact slipUnpack_answers p x
  · exact slipChecksum_answers p x
  · exact crcPack_answers p cmd x

/-! ### The send side and the receive side (R79) -/

/-- The receive side of a block: the ring with its lock, `running`, the deferred error, the POLL and `rx_frame`. -/
structure ReceiveSide where
  buf : Memory
  head : Word16
  tail : Word16
  version : Word32
  running : Bool
  derrPending : Bool
  derrCode : Byte
  ringLock : Lock
  scan : Option Scan
  rxFrame : Frame

/-- s with the receive side R in the place of its own. -/
def State.withReceive (R : ReceiveSide) (s : State) : State :=
  { s with
    buf := R.buf
    head := R.head
    tail := R.tail
    version := R.version
    running := R.running
    derrPending := R.derrPending
    derrCode := R.derrCode
    ringLock := R.ringLock
    scan := R.scan
    rxFrame := R.rxFrame }

/-- f neither reads nor writes the receive side. -/
def IgnoresReceive (f : State → State) : Prop := ∀ R s, f (s.withReceive R) = (f s).withReceive R

namespace IgnoresReceive

theorem reject (st : Status) : IgnoresReceive (Machine.reject st) := fun _ _ => rfl

theorem drawn : IgnoresReceive Machine.drawn := by
  intro R s
  cases h : s.cfg.lockFailMode
  · rw [drawn_never h, drawn_never (s := s.withReceive R) h]
  · rw [drawn_any h, drawn_any (s := s.withReceive R) h]
    rfl

/-- Taking send_lock does not look at the receive side either. -/
theorem withSendLock {busy body : State → State} (hbusy : IgnoresReceive busy) (hbody : IgnoresReceive body) :
    IgnoresReceive (withSendLock busy body) := by
  intro R s
  have hcond : (lockFail (s.withReceive R) || decide ((s.withReceive R).sendLock = .held)) =
      (lockFail s || decide (s.sendLock = .held)) := rfl
  unfold Machine.withSendLock
  rw [hcond, drawn R s]
  split
  · exact hbusy R _
  · exact congrArg (setSendLock .free) (hbody R (setSendLock .held (Machine.drawn s)))

/-- The send path works on `txbuf`, the sink, the events and the responses (41_transport.md R188 to R191). -/
theorem sendPacked (packed : Bytes) : IgnoresReceive (sendPacked packed) := by
  intro R s
  by_cases hmin : (boundTx s.cfg packed).length ≥ s.cfg.minLen
  · simp only [Machine.sendPacked, if_pos hmin, show (s.withReceive R).cfg = s.cfg from rfl]
    rfl
  · simp only [Machine.sendPacked, if_neg hmin, show (s.withReceive R).cfg = s.cfg from rfl]
    rfl

theorem send (packed : Bytes) : IgnoresReceive (send packed) := by
  intro R s
  cases hinit : s.initialized
  · simp only [Machine.send, hinit, show (s.withReceive R).initialized = s.initialized from rfl]
    rfl
  · simp only [Machine.send, hinit, show (s.withReceive R).initialized = s.initialized from rfl]
    exact (IgnoresReceive.reject .lockBusy).withSendLock (sendPacked packed) R s

end IgnoresReceive

/-- The bytes SEND packs and its refusal depend on the configuration and the operands, so all of SEND ignores the receive side. -/
theorem exec_send_withReceive {i : Instr} (hi : (∃ cmd P, i = .sendCrc cmd P) ∨ (∃ D, i = .sendSlip D)) {s t : State}
    (h : exec i s = .next t) (R : ReceiveSide) : exec i (s.withReceive R) = .next (t.withReceive R) := by
  have answers (packed : Bytes) (codec : Codec)
      (h : (if s.cfg.codec = codec then .next (send packed s) else .refused .otherCodec : Result) = .next t) :
      (if s.cfg.codec = codec then .next (send packed (s.withReceive R)) else .refused .otherCodec : Result) =
        .next (t.withReceive R) := by
    split at h <;> cases h
    rw [if_pos ‹_›, IgnoresReceive.send]
  rcases hi with ⟨cmd, P, rfl⟩ | ⟨D, rfl⟩
  · exact answers (pack s.cfg (.crc cmd P)) .crc16 h
  · exact answers (pack s.cfg (.slip D)) .slip h

/-- Settles O48: the ten fields are a receive side, and no part of SEND sees it. -/
theorem sendIgnoresReceiveSide : Obligations.SendIgnoresReceiveSide :=
  fun _ _ _ b h l v r d c k sc f hi ht => exec_send_withReceive hi ht ⟨b, h, l, v, r, d, c, k, sc, f⟩

end Sys2Proof.Machine

/-! PROOF. Decoding and encoding: the checks of 30_encoding.md R96 on the fields, and the two codes as inverses. -/

namespace Sys2Proof

/-! ### The checks of R96 -/

/-- R96's checks on the fields of a word whose opcode is op; the register number of REG_READ is `commandOf`'s to check. -/
def FieldsOk (codec : Codec) (op : Opcode) (a8 : Byte) (n : Word16) (din : Bytes) : Prop :=
  (op.usesArg8 codec = false → a8 = 0) ∧ (op.usesCount = false → n = 0) ∧
    (op.isData = true → din.length = n.toNat) ∧ (op.isData = false → din = [])

/-- A word with an assigned opcode passes the checks and means what `commandOf` says, or fails one of them and is ILLEGAL. -/
theorem decode_cases {codec : Codec} {w : Word32} {din : Bytes} {op : Opcode} (hop : Opcode.ofByte (opcodeField w) = some op) :
    (FieldsOk codec op (arg8Field w) (countField w) din ∧
        decode codec w din = commandOf codec op (arg8Field w) (countField w) din) ∨
      (¬ FieldsOk codec op (arg8Field w) (countField w) din ∧ ∃ e, decode codec w din = .error e) := by
  simp only [decode, hop, FieldsOk, Bool.and_eq_true, Bool.not_eq_true', bne_iff_ne, List.isEmpty_eq_false_iff]
  split_ifs with harg hcount hlen hdin
  · exact .inr ⟨fun ⟨h, _⟩ => harg.2 (h harg.1), _, rfl⟩
  · exact .inr ⟨fun ⟨_, h, _⟩ => hcount.2 (h hcount.1), _, rfl⟩
  · exact .inr ⟨fun ⟨_, _, h, _⟩ => hlen.2 (h hlen.1), _, rfl⟩
  · exact .inr ⟨fun ⟨_, _, _, h⟩ => hdin.2 (h hdin.1), _, rfl⟩
  · simp only [not_and, not_not] at harg hcount hlen hdin
    exact .inl ⟨⟨harg, hcount, hlen, hdin⟩, rfl⟩

/-- What decodes has an assigned opcode and fields that pass the checks. -/
theorem decode_ok_iff {codec : Codec} {w : Word32} {din : Bytes} {i : Instr} :
    decode codec w din = .ok i ↔ ∃ op, op.byte = opcodeField w ∧ FieldsOk codec op (arg8Field w) (countField w) din ∧
      commandOf codec op (arg8Field w) (countField w) din = .ok i := by
  constructor
  · intro h
    cases hop : Opcode.ofByte (opcodeField w) with
    | none => simp [decode, hop] at h
    | some op =>
      obtain ⟨hf, hd⟩ | ⟨-, e, hd⟩ := decode_cases (codec := codec) (din := din) hop
      · exact ⟨op, Opcode.byte_of_ofByte hop, hf, hd ▸ h⟩
      · simp [hd] at h
  · rintro ⟨op, hop, hf, h⟩
    obtain ⟨-, hd⟩ | ⟨hn, -⟩ := decode_cases (codec := codec) (din := din) (hop ▸ op.ofByte_byte)
    · exact hd.trans h
    · exact absurd hf hn

/-! ### Encoding, then decoding -/

/-- The per-command facts of `Laws.EncodedFields`, for every command. -/
theorem encodedFields (i : Instr) : Laws.EncodedFields.Statement i := by
  cases i with
  | init => exact Laws.EncodedFields.init
  | poll => exact Laws.EncodedFields.poll
  | sendCrc cmd payload => exact Laws.EncodedFields.sendCrc cmd payload
  | sendSlip body => exact Laws.EncodedFields.sendSlip body
  | readHook chunk => exact Laws.EncodedFields.readHook chunk
  | regRead r => exact Laws.EncodedFields.regRead r
  | ringEnqueue data => exact Laws.EncodedFields.ringEnqueue data
  | ringDequeue n => exact Laws.EncodedFields.ringDequeue n
  | ringPeek n => exact Laws.EncodedFields.ringPeek n
  | ringDiscard n => exact Laws.EncodedFields.ringDiscard n
  | ringRemaining => exact Laws.EncodedFields.ringRemaining
  | ringDataSize => exact Laws.EncodedFields.ringDataSize
  | crc16Compute data => exact Laws.EncodedFields.crc16Compute data
  | crcPack cmd payload => exact Laws.EncodedFields.crcPack cmd payload
  | crcUnpack data => exact Laws.EncodedFields.crcUnpack data
  | slipPack body => exact Laws.EncodedFields.slipPack body
  | slipUnpack data => exact Laws.EncodedFields.slipUnpack data
  | slipChecksum data => exact Laws.EncodedFields.slipChecksum data

/-- `commandOf` reads a command's operands back from its word and DIN; SEND's form is the codec's (R98). -/
theorem commandOf_encode {codec : Codec} {i : Instr} (h : i.codecOk codec = true) :
    commandOf codec i.opcode (arg8Field (encode i).1) (countField (encode i).1) (encode i).2 = .ok i := by
  cases i with
  | sendCrc cmd payload =>
    obtain rfl : codec = .crc16 := of_decide_eq_true h
    simp [commandOf, Instr.opcode, encode]
  | sendSlip body =>
    obtain rfl : codec = .slip := of_decide_eq_true h
    simp [commandOf, Instr.opcode, encode]
  | _ => simp [commandOf, Instr.opcode, encode]

/-- Settles O2: the fields of an encoded command pass R96's checks, and `commandOf` reads the operands back from them. -/
theorem decodeEncodeRoundTrip : Obligations.DecodeEncodeRoundTrip := by
  intro codec i hi
  obtain ⟨hop, harg, hcount, hdin, hlen, hempty⟩ := encodedFields i codec hi
  have hcodec : i.codecOk codec = true := (Bool.and_eq_true_iff.mp hi).2
  refine decode_ok_iff.mpr ⟨i.opcode, hop.symm, ⟨harg, hcount, ?_, ?_⟩, commandOf_encode hcodec⟩ <;> rw [hdin]
  · exact fun hd => (hlen hd).symm
  · exact hempty

/-! ### Decoding, then encoding -/

theorem lengthField_eq {din : Bytes} {n : Word16} (h : din.length = n.toNat) : lengthField din = n := by
  simp [lengthField, h]

/-- A command whose fields pass the checks is encoded by these fields. -/
theorem encode_commandOf {codec : Codec} {op : Opcode} {a8 : Byte} {n : Word16} {din : Bytes} {i : Instr}
    (hf : FieldsOk codec op a8 n din) (h : commandOf codec op a8 n din = .ok i) : encode i = (packWord op a8 n, din) := by
  obtain ⟨harg, hcount, hlen, hempty⟩ := hf
  cases op with
  | send =>
    cases codec with
    | crc16 => cases h; simp [encode, lengthField_eq (hlen rfl)]
    | slip => cases h; simp [encode, lengthField_eq (hlen rfl), harg rfl]
  | regRead =>
    simp only [commandOf] at h
    split at h <;> cases h
    rename_i r hr
    simp [encode, Reg.number_of_ofNumber hr, hcount rfl, hempty rfl]
  | crcPack => cases h; simp [encode, lengthField_eq (hlen rfl)]
  | init | poll | ringRemaining | ringDataSize => cases h; simp [encode, harg rfl, hcount rfl, hempty rfl]
  | ringDequeue | ringPeek | ringDiscard => cases h; simp [encode, harg rfl, hempty rfl]
  | readHook | ringEnqueue | crc16Compute | crcUnpack | slipPack | slipUnpack | slipChecksum =>
    cases h; simp [encode, harg rfl, lengthField_eq (hlen rfl)]

theorem encode_din (i : Instr) : (encode i).2 = i.din := by cases i <;> rfl

/-- A DIN that passes the checks is empty or as long as the 16-bit N says (R92). -/
theorem FieldsOk.din_length_lt {codec : Codec} {op : Opcode} {a8 : Byte} {n : Word16} {din : Bytes}
    (hf : FieldsOk codec op a8 n din) : din.length < 65536 := by
  obtain ⟨-, -, hlen, hempty⟩ := hf
  cases hd : op.isData
  · simp [hempty hd]
  · exact hlen hd ▸ n.isLt

/-- The SEND form a word means is the codec's (R98). -/
theorem codecOk_of_commandOf {codec : Codec} {op : Opcode} {a8 : Byte} {n : Word16} {din : Bytes} {i : Instr}
    (h : commandOf codec op a8 n din = .ok i) : i.codecOk codec = true := by
  cases op with
  | send => cases codec <;> cases h <;> rfl
  | regRead =>
    simp only [commandOf] at h
    split at h <;> cases h
    rfl
  | _ => cases h; rfl

/-- Settles O3: the checks leave no field of the word free, and bound DIN by the 16-bit N. -/
theorem decodedWordIsItsEncoding : Obligations.DecodedWordIsItsEncoding := by
  intro codec w din i h
  obtain ⟨op, hop, hf, hc⟩ := decode_ok_iff.mp h
  have henc : encode i = (w, din) := packWord_fields hop ▸ encode_commandOf hf hc
  have hdin : i.din = din := by rw [← encode_din, henc]
  refine ⟨henc, ?_⟩
  rw [Instr.wellFormed, hdin, codecOk_of_commandOf hc, decide_eq_true hf.din_length_lt]
  rfl

/-! ### Which commands are ILLEGAL (R96): the rule's numbers, one list for each of the model's tables of the opcodes -/

theorem Opcode.ofByte_eq_none_iff (b : Byte) : Opcode.ofByte b = none ↔
    b.toNat ∉ [0x01, 0x02, 0x03, 0x04, 0x0F, 0x10, 0x11, 0x12, 0x13, 0x14, 0x15, 0x20, 0x21, 0x22, 0x30, 0x31, 0x32] := by
  revert b; decide

theorem Opcode.usesArg8_iff (codec : Codec) (op : Opcode) : op.usesArg8 codec = true ↔
    op.byte.toNat ∈ if codec = .crc16 then [0x21, 0x0F, 0x03] else [0x21, 0x0F] := by
  cases codec <;> cases op <;> decide

theorem Opcode.usesCount_eq_false_iff (op : Opcode) :
    op.usesCount = false ↔ op.byte.toNat ∈ [0x01, 0x02, 0x0F, 0x14, 0x15] := by
  cases op <;> decide

theorem Opcode.isData_iff (op : Opcode) :
    op.isData = true ↔ op.byte.toNat ∈ [0x03, 0x04, 0x10, 0x20, 0x21, 0x22, 0x30, 0x31, 0x32] := by
  cases op <;> decide

theorem Opcode.eq_regRead_iff (op : Opcode) : op = .regRead ↔ op.byte.toNat = 0x0F := by
  cases op <;> decide

theorem Reg.ofNumber_eq_none_iff (b : Byte) : Reg.ofNumber b = none ↔ 0x12 < b.toNat := by
  revert b; decide

/-- After the checks of the fields only REG_READ can still fail, for its register number. -/
theorem commandOf_error_iff {codec : Codec} {op : Opcode} {a8 : Byte} {n : Word16} {din : Bytes} :
    (∃ e, commandOf codec op a8 n din = .error e) ↔ op = .regRead ∧ Reg.ofNumber a8 = none := by
  cases op with
  | send => cases codec <;> simp [commandOf]
  | regRead => cases hr : Reg.ofNumber a8 <;> simp [commandOf, hr]
  | _ => simp [commandOf]

/-- R96 for a word with an assigned opcode. -/
theorem decode_error_iff {codec : Codec} {w : Word32} {din : Bytes} {op : Opcode} (hop : Opcode.ofByte (opcodeField w) = some op) :
    (∃ e, decode codec w din = .error e) ↔
      ¬ FieldsOk codec op (arg8Field w) (countField w) din ∨ (op = .regRead ∧ Reg.ofNumber (arg8Field w) = none) := by
  rw [← commandOf_error_iff (codec := codec) (n := countField w) (din := din)]
  obtain ⟨hf, hd⟩ | ⟨hf, hd⟩ := decode_cases (codec := codec) (din := din) hop
  · simp [hf, hd]
  · simp [hf, hd]

/-- Settles O4: an opcode is reserved, or the word fails one of the four checks or names no register. -/
theorem illegalExactlyByRule : Obligations.IllegalExactlyByRule := by
  intro codec w din
  dsimp only
  rw [← opcodeField_toNat, ← arg8Field_toNat, ← countField_toNat]
  cases hop : Opcode.ofByte (opcodeField w) with
  | none =>
    exact iff_of_true ⟨.reservedOpcode, by simp [decode, hop]⟩ (.inl ((Opcode.ofByte_eq_none_iff _).mp hop))
  | some op =>
    have hassigned := (Opcode.ofByte_eq_none_iff (opcodeField w)).not.mp (by simp [hop])
    rw [decode_error_iff hop]
    rw [← Opcode.byte_of_ofByte hop] at hassigned ⊢
    rw [← Opcode.usesArg8_iff, ← Opcode.usesCount_eq_false_iff, ← Opcode.isData_iff, ← Opcode.eq_regRead_iff,
      ← Reg.ofNumber_eq_none_iff]
    simp only [hassigned, false_or, FieldsOk, not_and_or, Classical.not_imp, or_assoc, Bool.not_eq_true, ne_eq,
      BitVec.toNat_eq, BitVec.ofNat_eq_ofNat, BitVec.toNat_zero]

/-- Settles O1, by running the decoder on the twenty words. -/
theorem specWordsDecode : Obligations.SpecWordsDecode := by
  unfold Obligations.SpecWordsDecode
  decide

end Sys2Proof

/-! PROOF. What a step adds to the responses and to the events (30_encoding.md R90, R97, R104). -/

namespace Sys2Proof.Machine

/-! ### A command that stands first in the schedule -/

theorem fetch_command {s : State} {issuer : Nat} {w : Word32} {din : Bytes} {rest : List Input} (hl : legal s.cfg = true)
    (hs : s.inputs = .command issuer w din :: rest) (hw : waits issuer s = false) :
    fetch s = takeCommand w din { s with inputs := rest, caller := issuer } := by
  simp [fetch, hl, hs, hw]

/-- Settles O5: the command is fetched, decodes, and is run. -/
theorem stepRunsDecodedCommand : Obligations.StepRunsDecodedCommand := by
  intro s issuer w din rest i hl hs hw hd
  simp [step, fetch_command hl hs hw, takeCommand, hd]

/-- Settles O6: the command is fetched, does not decode, and is rejected. -/
theorem illegalCommandResponds : Obligations.IllegalCommandResponds := by
  intro s issuer w din rest e hl hs hw hd
  simp only [step, fetch_command hl hs hw, takeCommand, hd]
  rfl

/-! ### Responses and events -/

/-- An event the block does emit: neither of R104's two reserved ones. -/
def Event.Emittable (e : Event) : Prop := e ≠ .decodedTx ∧ e ≠ .pollTick

/-- From s to t, k more commands are answered or are the active POLL, and only events the block does emit are appended. -/
structure Accounts (k : Nat) (s t : State) : Prop where
  answered : t.responses.length + unanswered t = s.responses.length + unanswered s + k
  emitted : ∃ es, t.events = s.events ++ es ∧ ∀ e ∈ es, e.Emittable

theorem unanswered_none {s : State} (h : s.scan = none) : unanswered s = 0 := by simp [unanswered, h]

theorem unanswered_some {s : State} {sc : Scan} (h : s.scan = some sc) : unanswered s = 1 := by simp [unanswered, h]

theorem unanswered_congr {s t : State} (h : t.scan = s.scan) : unanswered t = unanswered s := by
  simp only [unanswered, State.pollActive, h]

namespace Accounts

variable {k m : Nat} {s t u : State} {sc : Scan}

/-- A change of the responses and the POLL's locals alone accounts for what it adds to them. -/
theorem of_events_eq (he : t.events = s.events)
    (ha : t.responses.length + unanswered t = s.responses.length + unanswered s + k) : Accounts k s t :=
  ⟨ha, [], by simp [he], by simp⟩

/-- A change of other fields accounts for nothing. -/
theorem of_eq (he : t.events = s.events) (hr : t.responses = s.responses) (hs : t.scan = s.scan) : Accounts 0 s t :=
  of_events_eq he (by simp [hr, unanswered_congr hs])

theorem refl (s : State) : Accounts 0 s s := of_eq rfl rfl rfl

theorem trans (h : Accounts k s t) (h' : Accounts m t u) : Accounts (k + m) s u := by
  obtain ⟨ha, es, hes, hemit⟩ := h
  obtain ⟨ha', es', hes', hemit'⟩ := h'
  refine ⟨by omega, es ++ es', by simp [hes', hes], fun e he => ?_⟩
  exact (List.mem_append.mp he).elim (hemit e) (hemit' e)

theorem keep (h : Accounts k s t) (h' : Accounts 0 t u) : Accounts k s u := h.trans h'

theorem same (h : Accounts k s t) (he : u.events = t.events) (hr : u.responses = t.responses) (hs : u.scan = t.scan) :
    Accounts k s u :=
  h.keep (of_eq he hr hs)

theorem emit (h : Accounts k s t) (e : Event) (he : e.Emittable := by simp [Event.Emittable]) : Accounts k s (Machine.emit e t) :=
  h.keep ⟨rfl, [e], rfl, by simpa using he⟩

theorem respond (h : Accounts k s t) (st : Status) (r : Word16) (d : Bytes) :
    Accounts (k + 1) s (Machine.respond st r d t) :=
  h.trans (of_events_eq rfl (by simp [unanswered_congr (respond_scan st r d t)]; omega))

theorem reject (h : Accounts k s t) (st : Status) : Accounts (k + 1) s (Machine.reject st t) := h.respond st 0 []

theorem drawn (s : State) : Accounts 0 s (Machine.drawn s) := of_eq (by simp) (by simp) (by simp)

theorem sinkAppend (h : Accounts k s t) (B : Bytes) : Accounts k s (Machine.sinkAppend B t) := h.same rfl rfl rfl

theorem ringDiscard (h : Accounts k s t) (n : Nat) : Accounts k s (Machine.ringDiscard n t) := h.same rfl rfl rfl

theorem ringEnqueue (h : Accounts k s t) (D : Bytes) : Accounts k s (Machine.ringEnqueue D t) := by
  unfold Machine.ringEnqueue
  have hstore : Accounts k s (ringStore D (enqueueCount D t) t) := h.same rfl rfl rfl
  dsimp only
  split
  · exact hstore.emit _
  · exact hstore

/-- Taking and releasing a lock accounts for nothing of its own: only the branch taken does. -/
theorem withRingLock {busy body : State → State}
    (hbusy : ∀ u, Accounts 0 s u → u.scan = s.scan → Accounts k s (busy u))
    (hbody : ∀ u, Accounts 0 s u → u.scan = s.scan → Accounts k s (body u)) :
    Accounts k s (Machine.withRingLock busy body s) := by
  rcases withRingLock_cases busy body s with h | ⟨-, h⟩ <;> rw [h]
  · exact hbusy _ (drawn s) (drawn_scan s)
  · exact (hbody (setRingLock .held (Machine.drawn s)) ((drawn s).same rfl rfl rfl) (drawn_scan s)).same
      rfl rfl rfl

theorem withSendLock {busy body : State → State} (hbusy : ∀ u, Accounts 0 s u → Accounts k s (busy u))
    (hbody : ∀ u, Accounts 0 s u → Accounts k s (body u)) : Accounts k s (Machine.withSendLock busy body s) := by
  rcases withSendLock_cases busy body s with h | ⟨-, h⟩ <;> rw [h]
  · exact hbusy _ (drawn s)
  · exact (hbody (setSendLock .held (Machine.drawn s)) ((drawn s).same rfl rfl rfl)).same rfl rfl rfl

/-! ### The micro-steps of the POLL: the command answered is the active POLL -/

theorem setScan (h : Accounts k s t) {sc' : Scan} (hscan : t.scan = some sc') :
    Accounts k s (Machine.setScan (some sc) t) :=
  h.keep (of_events_eq rfl (by rw [unanswered_some hscan, unanswered_some (setScan_scan (some sc) t)]; rfl))

/-- The POLL's end answers it and makes it inactive. -/
theorem pollEnd (h : Accounts k s t) {sc' : Scan} (hscan : t.scan = some sc') (st : Status) (r : Nat) :
    Accounts k s (Machine.pollEnd sc st r t) :=
  h.keep (of_events_eq rfl (by rw [unanswered_some hscan, unanswered_none (pollEnd_scan sc st r t)]; simp))

/-- Going on with the scan keeps the POLL active, or ends it. -/
theorem pollScan (h : Accounts k s t) {sc' : Scan} (hscan : t.scan = some sc') : Accounts k s (Machine.pollScan sc t) := by
  obtain ⟨f, n, -, ⟨-, hend⟩ | ⟨i, -, hnext⟩⟩ := pollScan_cases sc t
  · rw [hend]
    exact (h.pollEnd hscan .ok sc.count).same rfl rfl rfl
  · rw [hnext]
    exact (h.setScan hscan).same rfl rfl rfl

theorem pollClear (hscan : s.scan = some sc) : Accounts 0 s (Machine.pollClear sc s) :=
  withRingLock (fun _ hu hus => hu.pollEnd (hus.trans hscan) _ _) fun _ hu _ => hu.same rfl rfl rfl

theorem pollPeek (hscan : s.scan = some sc) : Accounts 0 s (Machine.pollPeek sc s) := by
  refine withRingLock (fun _ hu hus => hu.pollEnd (hus.trans hscan) _ _) fun u hu hus => ?_
  dsimp only
  split
  · exact hu.pollEnd (hus.trans hscan) _ _
  · have hraw := hu.emit (.rawRx (ringPeek u.cfg.maxLen u))
    split
    · exact hraw.setScan (hus.trans hscan)
    · exact hraw.pollScan (hus.trans hscan)

theorem pollResync (hscan : s.scan = some sc) : Accounts 0 s (Machine.pollResync sc s) :=
  withRingLock (fun _ hu hus => hu.pollEnd (hus.trans hscan) _ _) fun _ hu hus =>
    (hu.ringDiscard _).pollScan (hus.trans hscan)

theorem pollFrame (hscan : s.scan = some sc) : Accounts 0 s (Machine.pollFrame sc s) := by
  refine withRingLock (fun _ hu hus => hu.pollEnd (hus.trans hscan) _ _) fun u hu hus => ?_
  dsimp only
  split
  · exact hu.pollScan (hus.trans hscan)
  · rename_i L F _
    have hframe : Accounts 0 s (setRxFrame F (Machine.ringDiscard (sc.pos + L - sc.base) u)) := hu.same rfl rfl rfl
    exact (hframe.emit _).pollScan (hus.trans hscan)

theorem pollTurn (s : State) : Accounts 0 s (Machine.pollTurn s) := by
  unfold Machine.pollTurn
  cases hscan : s.scan with
  | none => exact refl s
  | some sc =>
    dsimp only
    cases sc.phase with
    | start =>
      dsimp only
      split
      · exact pollPeek hscan
      · exact pollClear hscan
    | resync => exact pollResync hscan
    | frame => exact pollFrame hscan

/-! ### The commands: each answers once, or becomes the active POLL -/

theorem execInit (h : Machine.execInit s = .next t) : Accounts 1 s t := by
  unfold Machine.execInit at h
  split at h <;> cases h
  · exact (refl s).reject _
  · have hflags : Accounts 0 s (setInitialized s) := of_eq rfl rfl rfl
    exact (hflags.emit _).respond _ _ _

theorem execPoll (h : Machine.execPoll s = .next t) : Accounts 1 s t := by
  unfold Machine.execPoll at h
  split_ifs at h with hinit hactive hderr <;> cases h
  · exact (refl s).reject _
  · exact (refl s).reject _
  · have hclear : Accounts 0 s (clearDerr s) := of_eq rfl rfl rfl
    exact (hclear.emit _).respond _ _ _
  · have hnone : s.scan = none := by simpa [State.pollActive] using hactive
    exact of_events_eq rfl (by rw [unanswered_none hnone, unanswered_some (setScan_scan _ s)]; rfl)

theorem sendPacked (h : Accounts 0 s t) (packed : Bytes) : Accounts 1 s (Machine.sendPacked packed t) := by
  unfold Machine.sendPacked
  have hstore : Accounts 0 s (storeTx (boundTx t.cfg packed) t) := h.same rfl rfl rfl
  have hraw := hstore.emit (.rawTx (boundTx t.cfg packed))
  dsimp only
  split
  · exact (hraw.sinkAppend _).respond _ _ _
  · exact (hraw.emit _).respond _ _ _

theorem send (packed : Bytes) (s : State) : Accounts 1 s (Machine.send packed s) := by
  unfold Machine.send
  split
  · exact (refl s).reject _
  · exact withSendLock (fun _ hu => hu.reject _) fun _ hu => hu.sendPacked packed

theorem execReadHook {chunk : Bytes} (h : Machine.execReadHook chunk s = .next t) : Accounts 1 s t := by
  cases h
  refine withRingLock (fun _ hu _ => hu.reject _) fun u hu _ => ?_
  dsimp only
  split
  · exact (hu.emit _).reject _
  · exact (hu.ringEnqueue chunk).respond _ _ _

theorem ringCommand {body : State → State} (hbody : ∀ u, Accounts 0 s u → Accounts 1 s (body u))
    (h : Machine.ringCommand body s = .next t) : Accounts 1 s t := by
  cases h
  exact withRingLock (fun _ hu _ => hu.reject _) fun u hu _ => hbody u hu

/-- A command that only answers (R69). -/
theorem answersFromConfig {i : Instr} (hi : AnswersFromConfig s.cfg i) (h : Machine.exec i s = .next t) : Accounts 1 s t := by
  obtain ⟨st, r, d, hexec⟩ := hi
  cases (hexec s rfl).symm.trans h
  exact (refl s).respond st r d

theorem exec {i : Instr} (h : Machine.exec i s = .next t) : Accounts 1 s t := by
  cases i with
  | init => exact execInit h
  | poll => exact execPoll h
  | sendCrc cmd payload =>
    simp only [Machine.exec, execSendCrc] at h
    split at h <;> cases h
    exact send _ s
  | sendSlip body =>
    simp only [Machine.exec, execSendSlip] at h
    split at h <;> cases h
    exact send _ s
  | readHook chunk => exact execReadHook h
  | regRead r => cases h; exact (refl s).respond _ _ _
  | ringEnqueue data => exact ringCommand (fun _ hu => (hu.ringEnqueue data).respond _ _ _) h
  | ringDequeue n => exact ringCommand (fun _ hu => (hu.ringDiscard _).respond _ _ _) h
  | ringDiscard n => exact ringCommand (fun _ hu => (hu.ringDiscard _).respond _ _ _) h
  | ringPeek | ringRemaining | ringDataSize => exact ringCommand (fun _ hu => hu.respond _ _ _) h
  | crc16Compute data => exact answersFromConfig (crc16Compute_answers _ data) h
  | crcPack cmd payload => exact answersFromConfig (crcPack_answers _ cmd payload) h
  | crcUnpack data => exact answersFromConfig (crcUnpack_answers _ data) h
  | slipPack body => exact answersFromConfig (slipPack_answers _ body) h
  | slipUnpack data => exact answersFromConfig (slipUnpack_answers _ data) h
  | slipChecksum data => exact answersFromConfig (slipChecksum_answers _ data) h

end Accounts

theorem taken_command {s : State} {issuer : Nat} {w : Word32} {din : Bytes} {rest : List Input}
    (hs : s.inputs = .command issuer w din :: rest) : taken s = if waits issuer s then 0 else 1 := by
  simp only [taken, hs]

/-- A turn of the POLL and RAISE_DERR account for no command, a command taken from the schedule for one. -/
theorem step_accounts {s t : State} (h : step s = .next t) : Accounts (taken s) s t := by
  have taking (rest : List Input) (c : Nat) : Accounts 0 s { s with inputs := rest, caller := c } := .of_eq rfl rfl rfl
  obtain ⟨-, ⟨hs, rfl⟩ | ⟨rest, hs, rfl⟩ | ⟨issuer, w, din, rest, hs, hw, rfl⟩ | ⟨code, rest, hs, rfl⟩ |
    ⟨issuer, w, din, rest, hs, hw, ⟨e, -, rfl⟩ | ⟨i, -, he⟩⟩⟩ := step_cases h
  · simpa only [taken, hs] using Accounts.pollTurn s
  · simpa only [taken, hs] using (taking rest s.caller).keep (.pollTurn _)
  · rw [taken_command hs, hw]
    exact .pollTurn s
  · simpa only [taken, hs] using
      (taking rest s.caller).same (raiseDerr_events code _) (raiseDerr_responses code _) (raiseDerr_scan code _)
  · rw [taken_command hs, hw]
    exact (taking rest issuer).reject .illegalCmd
  · rw [taken_command hs, hw]
    exact (taking rest issuer).trans (.exec he)

/-- Settles O17: what a step appends are events the block does emit. -/
theorem reservedEventsNeverEmitted : Obligations.ReservedEventsNeverEmitted := by
  intro s t h e he
  obtain ⟨es, hes, hemit⟩ := (step_accounts h).emitted
  rw [hes, List.drop_left] at he
  exact hemit e he

/-- Settles O20: each command is answered in its step, or becomes the active POLL, whose last micro-step answers it. -/
theorem oneResponsePerCommand : Obligations.OneResponsePerCommand := fun _ _ h => (step_accounts h).answered

end Sys2Proof.Machine

/-! PROOF. The byte ring commands (40_ring.md): what each does when ring_lock is taken and when it is not, and runs of enqueues. -/

namespace Sys2Proof.Machine

/-! ### A failed acquisition (R130) -/

/-- Each of these commands is one acquisition of ring_lock, whose busy answer is LOCK_BUSY. -/
theorem exec_takesRingLock {i : Instr} (hi : takesRingLock i) (s : State) :
    ∃ body, exec i s = .next (withRingLock (reject .lockBusy) body s) := by
  cases i with
  | readHook | ringEnqueue | ringDequeue | ringPeek | ringDiscard | ringRemaining | ringDataSize => exact ⟨_, rfl⟩
  | init | poll | sendCrc | sendSlip | regRead | crc16Compute | crcPack | crcUnpack | slipPack | slipUnpack | slipChecksum =>
    exact hi.elim

/-- Settles O21: the one acquisition fails, which takes its draw and answers LOCK_BUSY. -/
theorem ringLockFailureChangesNothing : Obligations.RingLockFailureChangesNothing := by
  intro s i hi hf
  obtain ⟨body, hexec⟩ := exec_takesRingLock hi s
  rw [hexec, withRingLock_busy hf, drawn_any (lockFails_any hf)]
  rfl

/-! ### A ring command that takes the lock -/

@[simp] theorem dataSize_drawn (s : State) : dataSize (drawn s) = dataSize s := dataSize_congr (by simp) (by simp) (by simp)

@[simp] theorem remainingSize_drawn (s : State) : remainingSize (drawn s) = remainingSize s := by simp [remainingSize]

@[simp] theorem enqueueCount_drawn (D : Bytes) (s : State) : enqueueCount D (drawn s) = enqueueCount D s := by
  simp [enqueueCount]

@[simp] theorem takeCount_drawn (n : Nat) (s : State) : takeCount n (drawn s) = takeCount n s := by simp [takeCount]

@[simp] theorem stored_drawn (s : State) : stored (drawn s) = stored s :=
  stored_congr (by simp) (by simp) (by simp) (by simp)

/-- Taking the free lock and releasing it leaves what the draw left. -/
theorem release_hold {s : State} (h : s.ringLock = .free) : setRingLock .free (setRingLock .held (drawn s)) = drawn s := by
  apply State.ext <;> simp [h]

/-- A ring command whose body does not look at the lock does its body, once the draw is taken. -/
theorem ringCommand_ready {body : State → State} {s : State} (h : ringReady s)
    (hbody : ∀ l t, setRingLock l (body t) = body (setRingLock l t)) : ringCommand body s = .next (body (drawn s)) := by
  rw [ringCommand, withRingLock_ready h, hbody, release_hold h.2]

theorem setRingLock_ringEnqueue (l : Lock) (D : Bytes) (t : State) :
    setRingLock l (ringEnqueue D t) = ringEnqueue D (setRingLock l t) :=
  apply_ite (setRingLock l) _ _ _

/-- A discard of as many bytes as a discard of n bytes reaches is that discard. -/
theorem ringDiscard_takeCount (n : Nat) (s : State) : ringDiscard (takeCount n s) s = ringDiscard n s := by
  simp [ringDiscard, takeCount]

theorem exec_ringEnqueue {s : State} (h : ringReady s) (D : Bytes) :
    exec (.ringEnqueue D) s = .next (respond (if enqueueCount D s < D.length then .truncated else .ok)
      (word16 (enqueueCount D s)) [] (ringEnqueue D (drawn s))) := by
  rw [show exec (.ringEnqueue D) s = _ from ringCommand_ready h fun l t => by
    dsimp only
    rw [← setRingLock_ringEnqueue]
    rfl]
  simp only [enqueueCount_drawn]

theorem exec_ringDequeue {s : State} (h : ringReady s) (n : Word16) :
    exec (.ringDequeue n) s = .next (respond .ok (word16 (takeCount n.toNat s)) ((stored s).take n.toNat)
      (ringDiscard n.toNat (drawn s))) := by
  rw [show exec (.ringDequeue n) s = _ from ringCommand_ready h fun _ _ => rfl]
  simp only [ringPeek_length, ringDiscard_takeCount]
  simp only [ringPeek_eq, stored_drawn, takeCount_drawn]

theorem exec_ringPeek {s : State} (h : ringReady s) (n : Word16) :
    exec (.ringPeek n) s = .next (respond .ok (word16 (takeCount n.toNat s)) ((stored s).take n.toNat) (drawn s)) := by
  rw [show exec (.ringPeek n) s = _ from ringCommand_ready h fun _ _ => rfl]
  simp only [ringPeek_length]
  simp only [ringPeek_eq, stored_drawn, takeCount_drawn]

theorem exec_ringDiscard {s : State} (h : ringReady s) (n : Word16) :
    exec (.ringDiscard n) s = .next (respond .ok (word16 (takeCount n.toNat s)) [] (ringDiscard n.toNat (drawn s))) := by
  rw [show exec (.ringDiscard n) s = _ from ringCommand_ready h fun _ _ => rfl, takeCount_drawn]

theorem exec_ringRemaining {s : State} (h : ringReady s) :
    exec .ringRemaining s = .next (respond .ok (word16 (remainingSize s)) [] (drawn s)) := by
  rw [show exec .ringRemaining s = _ from ringCommand_ready h fun _ _ => rfl, remainingSize_drawn]

theorem exec_ringDataSize {s : State} (h : ringReady s) :
    exec .ringDataSize s = .next (respond .ok (word16 (dataSize s)) [] (drawn s)) := by
  rw [show exec .ringDataSize s = _ from ringCommand_ready h fun _ _ => rfl, dataSize_drawn]

/-! ### The commands that only answer -/

theorem respond_drawn (st : Status) (r : Word16) (d : Bytes) (s : State) :
    respond st r d (drawn s) = { s with
      responses := s.responses ++ [{ issuer := s.caller, status := st, result := r, dout := d }]
      draws := (drawn s).draws } := by
  apply State.ext <;> simp

/-- Settles O25, by `exec_ringPeek`. -/
theorem ringPeekReturnsStored : Obligations.RingPeekReturnsStored := by
  intro s n _ hr
  rw [exec_ringPeek hr, respond_drawn]
  rfl

/-- Settles O27, by `exec_ringRemaining` and `exec_ringDataSize`. -/
theorem ringSizesReported : Obligations.RingSizesReported := by
  intro s _ hr
  rw [exec_ringRemaining hr, exec_ringDataSize hr, respond_drawn, respond_drawn, stored_length]
  exact ⟨rfl, rfl⟩

/-! ### The commands that remove bytes -/

theorem stored_respond (st : Status) (r : Word16) (d : Bytes) (s : State) : stored (respond st r d s) = stored s :=
  stored_congr rfl rfl rfl rfl

/-- A discard and its answer, as a change of `head`, `version`, responses and draws alone. -/
theorem respond_ringDiscard_drawn (n : Nat) (st : Status) (r : Word16) (d : Bytes) (s : State) :
    respond st r d (ringDiscard n (drawn s)) = { s with
      head := word16 ((s.head.toNat + takeCount n s) % s.cfg.C)
      version := bumpVersion (takeCount n s) s.version
      responses := s.responses ++ [{ issuer := s.caller, status := st, result := r, dout := d }]
      draws := (drawn s).draws } := by
  apply State.ext <;> simp

theorem stored_respond_ringDiscard {s : State} (hs : s.Inv) (n : Nat) (st : Status) (r : Word16) (d : Bytes) :
    stored (respond st r d (ringDiscard n (drawn s))) = (stored s).drop n := by
  rw [stored_respond, stored_ringDiscard hs.drawn.two_le hs.drawn.ring, stored_drawn]

/-- Settles O24: the dequeue answers the peeked bytes and discards as many. -/
theorem ringDequeueRemovesWhatItReturns : Obligations.RingDequeueRemovesWhatItReturns :=
  fun _ _ hs hr => ⟨_, exec_ringDequeue hr _, stored_respond_ringDiscard hs _ _ _ _, respond_ringDiscard_drawn _ _ _ _ _⟩

/-- Settles O26, by `exec_ringDiscard`. -/
theorem ringDiscardRemoves : Obligations.RingDiscardRemoves :=
  fun _ _ hs hr => ⟨_, exec_ringDiscard hr _, stored_respond_ringDiscard hs _ _ _ _, respond_ringDiscard_drawn _ _ _ _ _⟩

/-! ### RING_ENQUEUE -/

theorem take_enqueueCount (D : Bytes) (s : State) : D.take (enqueueCount D s) = D.take (remainingSize s) := by
  rw [enqueueCount, Nat.min_comm, ← List.take_take, List.take_length]

theorem enqueueCount_lt_C {s : State} (hC : 2 ≤ s.cfg.C) (D : Bytes) : enqueueCount D s < s.cfg.C := by
  have := enqueueCount_le D s
  unfold remainingSize at this
  omega

/-- Accepted byte j stands in the j-th slot from `tail` on (R131). -/
theorem read_ringEnqueue {s : State} (hC : 2 ≤ s.cfg.C) {D : Bytes} {j : Nat} (hj : j < enqueueCount D s) :
    (ringEnqueue D s).buf.read ((s.tail.toNat + j) % s.cfg.C) = D.getD j 0 := by
  have ha := enqueueCount_lt_C hC D
  have hD := enqueueCount_le_length D s
  have hlen : (D.take (enqueueCount D s)).length = enqueueCount D s := by simp [hD]
  rw [ringEnqueue_buf, Memory.read, Memory.find_writeAll (by omega) (by omega)]
  rw [List.getD_eq_getElem D 0 (Nat.lt_of_lt_of_le hj hD)]
  simp

/-- A slot that takes none of the accepted bytes reads as before. -/
theorem read_ringEnqueue_of_ne {s : State} {D : Bytes} {k : Nat}
    (hk : ∀ j < enqueueCount D s, k ≠ (s.tail.toNat + j) % s.cfg.C) : (ringEnqueue D s).buf.read k = s.buf.read k := by
  rw [ringEnqueue_buf]
  exact Memory.read_eq_of_find_eq (Memory.find_writeAll_of_ne fun j hj => hk j (by simp at hj; omega))

theorem respond_ringEnqueue_drawn (D : Bytes) (st : Status) (r : Word16) (d : Bytes) (s : State) :
    respond st r d (ringEnqueue D (drawn s)) = { s with
      buf := (ringEnqueue D (drawn s)).buf
      tail := word16 ((s.tail.toNat + enqueueCount D s) % s.cfg.C)
      version := bumpVersion (enqueueCount D s) s.version
      events := s.events ++
        if enqueueCount D s < D.length then [.logTruncate (word16 D.length) (word16 (enqueueCount D s))] else []
      responses := s.responses ++ [{ issuer := s.caller, status := st, result := r, dout := d }]
      draws := (drawn s).draws } := by
  apply State.ext
  case events => rw [respond_events, ringEnqueue_events, enqueueCount_drawn]; split <;> simp [*]
  all_goals simp

/-- Settles O23: the stored bytes (`stored_ringEnqueue`), the slots written and not written, and the frame. -/
theorem ringEnqueueAppends : Obligations.RingEnqueueAppends := by
  intro s D hs hr
  refine ⟨_, exec_ringEnqueue hr D, ?_, fun j hj => ?_, fun k hk => ?_, respond_ringEnqueue_drawn D _ _ _ s⟩
  · rw [stored_respond, stored_ringEnqueue hs.drawn.two_le hs.drawn.ring, stored_drawn, enqueueCount_drawn, enqueueCount,
      remainingSize]
  · simpa using read_ringEnqueue hs.drawn.two_le (D := D) (j := j) (by rw [enqueueCount_drawn]; exact hj)
  · simpa using read_ringEnqueue_of_ne (s := drawn s) (D := D) (k := k)
      (by rw [enqueueCount_drawn, drawn_tail, drawn_cfg]; exact hk)

/-! ### Commands one after another -/

theorem execAll_cons {i : Instr} {is : List Instr} {s t : State} (h : exec i s = .next t) :
    execAll (i :: is) s = execAll is t := by
  simp [execAll, h]

theorem execAll_append {is js : List Instr} {s t : State} (h : execAll is s = .next t) :
    execAll (is ++ js) s = execAll js t := by
  induction is generalizing s with
  | nil => cases h; rfl
  | cons i is ih =>
    cases hi : exec i s with
    | next u =>
      rw [execAll_cons hi] at h
      rw [List.cons_append, execAll_cons hi, ih h]
    | fault r => simp [execAll, hi] at h
    | refused r => simp [execAll, hi] at h

/-- With no lock failures the invariant makes every acquisition succeed. -/
theorem State.Inv.ringReady_never {s : State} (hs : s.Inv) (hn : s.cfg.lockFailMode = .never) : ringReady s :=
  ⟨lockFail_never hn, hs.ring_free⟩

/-- What enqueueing each of Ds by a command of its own leads to: as many bytes as there is room for are stored, and when all of them
fit, each command answers OK with its length and no event is emitted. -/
structure EnqueuedAll (Ds : List Bytes) (s t : State) : Prop where
  inv : t.Inv
  cfg : t.cfg = s.cfg
  caller : t.caller = s.caller
  stored : stored t = stored s ++ Ds.flatten.take (remainingSize s)
  events : Ds.flatten.length ≤ remainingSize s → t.events = s.events
  responses : Ds.flatten.length ≤ remainingSize s → t.responses = s.responses ++
    Ds.map fun D => { issuer := s.caller, status := .ok, result := word16 D.length, dout := [] }

namespace EnqueuedAll

variable {D : Bytes} {Ds : List Bytes} {s t u : State}

theorem nil (hs : s.Inv) : EnqueuedAll [] s s := ⟨hs, rfl, rfl, by simp, fun _ => rfl, fun _ => by simp⟩

/-- The stored bytes measure the room one enqueue leaves. -/
theorem remainingSize (h : EnqueuedAll [D] s t) : remainingSize t = Machine.remainingSize s - D.length := by
  have hlen := congrArg List.length h.stored
  simp only [stored_length, List.flatten_cons, List.flatten_nil, List.append_nil, List.length_append, List.length_take] at hlen
  unfold Machine.remainingSize at hlen ⊢
  rw [h.cfg]
  omega

theorem cons (h : EnqueuedAll [D] s u) (h' : EnqueuedAll Ds u t) : EnqueuedAll (D :: Ds) s t where
  inv := h'.inv
  cfg := h'.cfg.trans h.cfg
  caller := h'.caller.trans h.caller
  stored := by simp [h'.stored, h.stored, h.remainingSize, List.take_append]
  events hfit := by
    have hfit' : D.length + Ds.flatten.length ≤ Machine.remainingSize s := by simpa using hfit
    rw [h'.events (by rw [h.remainingSize]; omega), h.events (by simp; omega)]
  responses hfit := by
    have hfit' : D.length + Ds.flatten.length ≤ Machine.remainingSize s := by simpa using hfit
    rw [h'.responses (by rw [h.remainingSize]; omega), h.responses (by simp; omega), h.caller]
    simp

end EnqueuedAll

/-- One RING_ENQUEUE with no lock failure. -/
theorem exec_ringEnqueue_never {s : State} (hs : s.Inv) (hn : s.cfg.lockFailMode = .never) (D : Bytes) :
    ∃ t, exec (.ringEnqueue D) s = .next t ∧ EnqueuedAll [D] s t := by
  have hexec := exec_ringEnqueue (hs.ringReady_never hn) D
  rw [drawn_never hn] at hexec
  have whole (hfit : [D].flatten.length ≤ remainingSize s) : enqueueCount D s = D.length :=
    Nat.min_eq_left (by simpa using hfit)
  exact ⟨_, hexec, {
    inv := hs.commandEffect (exec_effect hexec)
    cfg := by simp
    caller := by simp
    stored := by simp [stored_respond, stored_ringEnqueue hs.two_le hs.ring, take_enqueueCount]
    events := fun hfit => by simp [ringEnqueue_events, whole hfit]
    responses := fun hfit => by simp [whole hfit] }⟩

theorem execAll_ringEnqueue {s : State} (hs : s.Inv) (hn : s.cfg.lockFailMode = .never) (Ds : List Bytes) :
    ∃ t, execAll (Ds.map .ringEnqueue) s = .next t ∧ EnqueuedAll Ds s t := by
  induction Ds generalizing s with
  | nil => exact ⟨s, rfl, .nil hs⟩
  | cons D Ds ih =>
    obtain ⟨u, hexec, hu⟩ := exec_ringEnqueue_never hs hn D
    obtain ⟨t, hrest, ht⟩ := ih hu.inv (by rw [hu.cfg, hn])
    exact ⟨t, by rw [List.map_cons, execAll_cons hexec, hrest], hu.cons ht⟩

theorem dataSize_add_remainingSize {s : State} (hC : 2 ≤ s.cfg.C) : dataSize s + remainingSize s = s.cfg.C - 1 :=
  Nat.add_sub_cancel' (Nat.le_sub_one_of_lt (dataSize_lt hC))

/-- Settles O29: the second half is the length of what `execAll_ringEnqueue` stores. -/
theorem capacityLaw : Obligations.CapacityLaw := by
  intro s hs
  have hsum := dataSize_add_remainingSize hs.two_le
  refine ⟨hsum, fun Ds hn => ?_⟩
  obtain ⟨t, hexec, ht⟩ := execAll_ringEnqueue hs hn Ds
  refine ⟨t, hexec, ?_⟩
  rw [← stored_length t, ht.stored, List.length_append, List.length_take, stored_length]
  omega

/-- Settles O28: the enqueues store the concatenation behind an empty ring, and the dequeue takes all of it. -/
theorem ringIsFifo : Obligations.RingIsFifo := by
  intro s Ds hs hn hempty hfit
  have hfit' : Ds.flatten.length ≤ remainingSize s := by rwa [remainingSize, hempty]
  obtain ⟨t, hexec, ht⟩ := execAll_ringEnqueue hs hn Ds
  have hnever : t.cfg.lockFailMode = .never := by rw [ht.cfg, hn]
  have hstored : stored t = Ds.flatten := by
    rw [ht.stored, List.take_of_length_le hfit', List.eq_nil_of_length_eq_zero ((stored_length s).trans hempty), List.nil_append]
  have hn16 : (word16 Ds.flatten.length).toNat = Ds.flatten.length :=
    word16_toNat (by have := s.cfg.capacity.isLt; unfold Params.C at hfit; omega)
  have hcount : takeCount Ds.flatten.length t = Ds.flatten.length := by rw [takeCount, ← stored_length, hstored, Nat.min_self]
  have hdeq := exec_ringDequeue (ht.inv.ringReady_never hnever) (word16 Ds.flatten.length)
  rw [hn16, hcount, hstored, List.take_length] at hdeq
  refine ⟨_, (execAll_append hexec).trans (execAll_cons hdeq), ?_, ?_, ?_⟩
  · simp [ht.responses hfit', ht.caller]
  · simp [ht.events hfit']
  · rw [stored_respond_ringDiscard ht.inv, hstored, List.drop_length]

end Sys2Proof.Machine

/-! PROOF. The transport commands (41_transport.md): the turns of the POLL in the schedule, INIT, READ_HOOK, SEND and the entry checks
of POLL. -/

namespace Sys2Proof.Machine

/-! ### The POLL's place in the schedule (R172, R279) -/

/-- With nothing scheduled the active POLL goes on. -/
theorem step_of_inputs_nil {s : State} (hl : legal s.cfg = true) (hi : s.inputs = []) : step s = .next (pollTurn s) := by
  simp [step, fetch, hl, hi]

/-- Settles O9: in each of the three cases `fetch` answers a finished turn of the POLL. -/
theorem pollTakesItsTurn : Obligations.PollTakesItsTurn := by
  intro s hl
  refine ⟨step_of_inputs_nil hl, fun rest hi => ?_, fun issuer w din rest hi hw => ?_⟩
  · simp [step, fetch, hl, hi]
  · simp [step, fetch, hl, hi, hw]

/-! ### INIT (R160) -/

/-- Settles O30: INIT has one check, and sets the two flags when it passes. -/
theorem initOnce : Obligations.InitOnce := by
  intro s
  refine ⟨fun h => ?_, fun h => ?_⟩
  · simp only [exec, execInit, h]
    rfl
  · simp only [exec, execInit, h]
    rfl

/-! ### READ_HOOK (R161) -/

/-- A chunk that fits is enqueued as by RING_ENQUEUE, which then accepts all of it. -/
theorem exec_readHook_fits {s : State} (h : ringReady s) {D : Bytes} (hD : D.length ≤ remainingSize s) :
    exec (.readHook D) s = exec (.ringEnqueue D) s := by
  have hcount : enqueueCount D s = D.length := Nat.min_eq_left hD
  rw [exec_ringEnqueue h, hcount, if_neg (Nat.lt_irrefl _), exec, execReadHook, withRingLock_ready h]
  simp only [remainingSize_hold, enqueueCount_hold, if_neg (Nat.not_lt.2 hD), hcount]
  show Host.Outcome.next (respond .ok (word16 D.length) [] (setRingLock .free (ringEnqueue D _))) = _
  rw [setRingLock_ringEnqueue, release_hold h.2]

/-- Settles O31: the enqueue of a chunk that fits is that of RING_ENQUEUE, with nothing truncated. -/
theorem readHookStoresWholeChunk : Obligations.ReadHookStoresWholeChunk := by
  intro s D hs hr hD
  have h := ringEnqueueAppends s D hs hr
  simp only [Nat.min_eq_left hD, Nat.lt_irrefl, if_false, List.append_nil, List.take_length] at h
  rwa [exec_readHook_fits hr hD]

/-- Settles O32: a chunk too large meets the first branch of READ_HOOK, which only reports. -/
theorem readHookDropsWholeChunk : Obligations.ReadHookDropsWholeChunk := by
  intro s D hr hD
  rw [exec, execReadHook, withRingLock_ready hr]
  have hD' : D.length > remainingSize s := hD
  simp only [remainingSize_hold, if_pos hD']
  congr 1
  apply State.ext <;> simp [hr.2, remainingSize]

/-! ### SEND (R188 to R191) -/

theorem send_notInit {packed : Bytes} {s : State} (h : s.initialized = false) : send packed s = reject .notInit s := by
  simp [send, h]

theorem send_busy {packed : Bytes} {s : State} (h : s.initialized = true) (hf : lockFails s) :
    send packed s = reject .lockBusy (drawn s) := by
  simp [send, h, withSendLock_busy hf]

theorem send_ready {packed : Bytes} {s : State} (h : s.initialized = true) (hr : sendReady s) :
    send packed s = setSendLock .free (sendPacked packed (setSendLock .held (drawn s))) := by
  simp [send, h, withSendLock_ready hr]

/-- The state SEND leaves after the send path with the bounded frame B (R188 to R191): `txbuf`, `sink`, the events and the response
are written from B, and the acquisition has taken its draw. -/
def sent (B : Bytes) (s : State) : State :=
  { s with
    txbuf := (storeTx B s).txbuf
    sink := s.sink ++ if B.length ≥ s.cfg.minLen then B else []
    events := s.events ++ .rawTx B :: if B.length ≥ s.cfg.minLen then [] else [.logSendGuard (word16 B.length)]
    responses := s.responses ++
      [{ issuer := s.caller, status := if B.length ≥ s.cfg.minLen then .ok else .sendGuardDrop,
         result := word16 B.length, dout := [] }]
    draws := (drawn s).draws }

theorem send_eq_sent {packed B : Bytes} {s : State} (h : s.initialized = true) (hr : sendReady s)
    (hB : boundTx s.cfg packed = B) : send packed s = sent B s := by
  rw [send_ready h hr]
  by_cases hmin : B.length ≥ s.cfg.minLen
  · simp only [sendPacked, setSendLock_cfg, drawn_cfg, hB, if_pos hmin]
    apply State.ext <;> simp [sent, hr.2, hmin]
  · simp only [sendPacked, setSendLock_cfg, drawn_cfg, hB, if_neg hmin]
    apply State.ext <;> simp [sent, hr.2, hmin]

/-- The k-th byte of a frame goes to slot k: a bounded frame never wraps in `txbuf` (R189). -/
theorem find_storeTx {B : Bytes} {s : State} (hB : B.length ≤ s.cfg.txLen) {k : Nat} (hk : k < B.length) :
    (storeTx B s).txbuf.find k = some (B.getD k 0) := by
  have h := Memory.find_writeAll (m := s.txbuf) (k := 0) hB hk
  rw [Nat.zero_add, Nat.mod_eq_of_lt (Nat.lt_of_lt_of_le hk hB)] at h
  rw [storeTx_txbuf, h, List.getD_eq_getElem _ _ hk]

/-- The slots behind a frame keep what they hold. -/
theorem find_storeTx_of_ge {B : Bytes} {s : State} (hB : B.length ≤ s.cfg.txLen) {k : Nat} (hk : k ≥ B.length) :
    (storeTx B s).txbuf.find k = s.txbuf.find k := by
  rw [storeTx_txbuf]
  refine Memory.find_writeAll_of_ne fun j hj => ?_
  rw [Nat.zero_add, Nat.mod_eq_of_lt (Nat.lt_of_lt_of_le hj hB)]
  omega

/-- What SEND with the lock does with the bounded frame B, for either codec. -/
theorem exec_send_path {i : Instr} {packed B : Bytes} {s : State} (hi : exec i s = .next (send packed s))
    (h : s.initialized = true) (hr : sendReady s) (hB : boundTx s.cfg packed = B) :
    exec i s = .next (sent B s) ∧ (∀ k < B.length, (sent B s).txbuf.find k = some (B.getD k 0)) ∧
      (∀ k ≥ B.length, (sent B s).txbuf.find k = s.txbuf.find k) := by
  have hlen : B.length ≤ s.cfg.txLen := hB ▸ boundTx_le s.cfg packed
  rw [send_eq_sent h hr hB] at hi
  exact ⟨hi, fun k hk => find_storeTx hlen hk, fun k hk => find_storeTx_of_ge hlen hk⟩

theorem exec_sendCrc {s : State} (h : s.cfg.codec = .crc16) (cmd : Byte) (P : Bytes) :
    exec (.sendCrc cmd P) s = .next (send (crcPack s.cfg cmd P) s) := by
  simp [exec, execSendCrc, h, pack]

theorem exec_sendSlip {s : State} (h : s.cfg.codec = .slip) (D : Bytes) :
    exec (.sendSlip D) s = .next (send (slipPack s.cfg D) s) := by
  simp [exec, execSendSlip, h, pack]

/-- A CRC frame goes on unless it cannot be packed (R215) or exceeds TX_MAX (R189). -/
theorem boundTx_crcPack (p : Params) (cmd : Byte) (P : Bytes) :
    boundTx p (crcPack p cmd P) = if P.length > 255 ∨ P.length + 5 > p.txLen then [] else crcPack p cmd P := by
  by_cases hP : P.length > 255
  · rw [if_pos (.inl hP), crcPack_long hP]
    exact if_neg (by simp)
  · simp only [boundTx, crcPack_length (Nat.not_lt.1 hP), hP, false_or]

/-- Settles O45, by `exec_send_path` for the CRC frame. -/
theorem sendCrcPath : Obligations.SendCrcPath := by
  intro s cmd P hc h hr
  obtain ⟨hexec, hwritten, hkept⟩ := exec_send_path (exec_sendCrc hc cmd P) h hr (boundTx_crcPack s.cfg cmd P)
  exact ⟨_, hexec, hwritten, hkept, rfl⟩

/-- Settles O46, by `exec_send_path` for the SLIP frame. -/
theorem sendSlipPath : Obligations.SendSlipPath := by
  intro s D hc h hr
  obtain ⟨hexec, hwritten, hkept⟩ := exec_send_path (exec_sendSlip hc D) h hr rfl
  exact ⟨_, hexec, hwritten, hkept, rfl⟩

/-- Settles O47: both forms are `send` on a block of their codec, and refused on any other. -/
theorem sendTurnedAway : Obligations.SendTurnedAway := by
  intro s codec i hi
  suffices hx : ∃ packed, (s.cfg.codec = codec → exec i s = .next (send packed s)) ∧
      (s.cfg.codec ≠ codec → exec i s = .refused .otherCodec) by
    obtain ⟨packed, hsend, hother⟩ := hx
    refine ⟨fun hc h => ?_, fun hc h hf => ?_, hother⟩
    · rw [hsend hc, send_notInit h, reject_eq_answered]
    · rw [hsend hc, send_busy h hf, drawn_any (lockFails_any hf)]
      rfl
  rcases hi with ⟨rfl, cmd, P, rfl⟩ | ⟨rfl, D, rfl⟩
  · exact ⟨_, fun hc => exec_sendCrc hc cmd P, fun hc => by simp [exec, execSendCrc, hc]⟩
  · exact ⟨_, fun hc => exec_sendSlip hc D, fun hc => by simp [exec, execSendSlip, hc]⟩

/-! ### POLL's entry checks (R170) -/

/-- Settles O49: the four branches of POLL's first micro-step. -/
theorem pollEntryChecks : Obligations.PollEntryChecks := by
  intro s
  refine ⟨fun hi => ?_, fun hi ha => ?_, fun hi ha hd => ?_, fun hi ha hd => ?_⟩
  · rw [exec, execPoll, if_pos (by simp [hi]), reject_eq_answered]
  · rw [exec, execPoll, if_neg (by simp [hi]), if_pos ha, reject_eq_answered]
  · rw [exec, execPoll, if_neg (by simp [hi]), if_neg (by simp [ha]), if_pos hd]
    rfl
  · rw [exec, execPoll, if_neg (by simp [hi]), if_neg (by simp [ha]), if_neg (by simp [hd])]
    rfl

end Sys2Proof.Machine

/-! PROOF. The micro-steps of an active POLL (41_transport.md R171 to R183), each as an equation for the turn that gets its lock. -/

namespace Sys2Proof.Machine

/-! ### What going on with the scan leaves alone -/

/-- Going on with the scan changes these four fields at most. -/
theorem pollScan_frame (sc : Scan) (s : State) :
    pollScan sc s = { s with
      scan := (pollScan sc s).scan
      responses := (pollScan sc s).responses
      rxFrame := (pollScan sc s).rxFrame
      freeCount := (pollScan sc s).freeCount } := by
  obtain ⟨f, n, -, ⟨-, h⟩ | ⟨i, -, h⟩⟩ := pollScan_cases sc s <;> rw [h]

@[simp] theorem pollScan_cfg (sc : Scan) (s : State) : (pollScan sc s).cfg = s.cfg := by rw [pollScan_frame]

@[simp] theorem pollScan_buf (sc : Scan) (s : State) : (pollScan sc s).buf = s.buf := by rw [pollScan_frame]

@[simp] theorem pollScan_head (sc : Scan) (s : State) : (pollScan sc s).head = s.head := by rw [pollScan_frame]

@[simp] theorem pollScan_tail (sc : Scan) (s : State) : (pollScan sc s).tail = s.tail := by rw [pollScan_frame]

@[simp] theorem pollScan_version (sc : Scan) (s : State) : (pollScan sc s).version = s.version := by rw [pollScan_frame]

@[simp] theorem pollScan_sink (sc : Scan) (s : State) : (pollScan sc s).sink = s.sink := by rw [pollScan_frame]

@[simp] theorem pollScan_events (sc : Scan) (s : State) : (pollScan sc s).events = s.events := by rw [pollScan_frame]

@[simp] theorem pollScan_inputs (sc : Scan) (s : State) : (pollScan sc s).inputs = s.inputs := by rw [pollScan_frame]

@[simp] theorem stored_pollScan (sc : Scan) (s : State) : stored (pollScan sc s) = stored s :=
  stored_congr (by simp) (by simp) (by simp) (by simp)

/-! ### Where going on with the scan leads -/

/-- With no further match the POLL ends (R182, R183). -/
theorem pollScan_of_none {sc : Scan} {s : State} (h : nextMatch s.cfg sc.pos (sc.window.drop sc.pos) = none) :
    (pollScan sc s).scan = none ∧ (pollScan sc s).responses =
      s.responses ++ [{ issuer := sc.issuer, status := .ok, result := word16 sc.count, dout := [] }] := by
  obtain ⟨f, n, -, ⟨-, hp⟩ | ⟨i, hi, -⟩⟩ := pollScan_cases sc s
  · rw [hp]
    exact ⟨rfl, rfl⟩
  · rw [h] at hi
    cases hi

/-- With a match at i, its P4 is next (R180). -/
theorem pollScan_of_some {sc : Scan} {s : State} {i : Nat} (h : nextMatch s.cfg sc.pos (sc.window.drop sc.pos) = some i) :
    (pollScan sc s).scan = some { sc with phase := .frame, pos := i } ∧ (pollScan sc s).responses = s.responses := by
  obtain ⟨f, n, -, ⟨hn, -⟩ | ⟨j, hj, hp⟩⟩ := pollScan_cases sc s
  · rw [h] at hn
    cases hn
  · obtain rfl : i = j := Option.some.inj (h.symm.trans hj)
    rw [hp]
    exact ⟨rfl, rfl⟩

/-- Either way: the POLL ends, or it waits at a match in the window, no earlier than the scan index. -/
theorem pollScan_outcome (sc : Scan) (s : State) :
    ((pollScan sc s).scan = none ∧ (pollScan sc s).responses =
      s.responses ++ [{ issuer := sc.issuer, status := .ok, result := word16 sc.count, dout := [] }]) ∨
    ((pollScan sc s).responses = s.responses ∧ ∃ i, sc.pos ≤ i ∧ i < sc.window.length ∧
      (pollScan sc s).scan = some { sc with phase := .frame, pos := i }) := by
  cases hm : nextMatch s.cfg sc.pos (sc.window.drop sc.pos) with
  | none => exact .inl (pollScan_of_none hm)
  | some i =>
    obtain ⟨hscan, hresp⟩ := pollScan_of_some hm
    obtain ⟨hle, hlt, -⟩ := nextMatch_some hm
    rw [List.length_drop] at hlt
    exact .inr ⟨hresp, i, hle, by omega, hscan⟩

/-- `rxFrame` keeps its value or takes one free value (R36). -/
theorem pollScan_rxFrame (sc : Scan) (s : State) :
    ((pollScan sc s).rxFrame = s.rxFrame ∧ (pollScan sc s).freeCount = s.freeCount) ∨
      (pollScan sc s).freeCount = s.freeCount + 1 := by
  obtain ⟨f, n, ⟨rfl, rfl⟩ | ⟨-, rfl⟩, ⟨-, h⟩ | ⟨i, -, h⟩⟩ := pollScan_cases sc s <;> simp [h]

/-! ### Each micro-step when the lock is to be had -/

/-- A step under ring_lock whose body does not look at the lock does its body, once the draw is taken. -/
theorem withRingLock_eq {busy body : State → State} {s : State} (h : ringReady s)
    (hbody : ∀ l t, setRingLock l (body t) = body (setRingLock l t)) : withRingLock busy body s = body (drawn s) := by
  rw [withRingLock_ready h, hbody, release_hold h.2]

theorem setRingLock_pollScan (l : Lock) (sc : Scan) (s : State) :
    setRingLock l (pollScan sc s) = pollScan sc (setRingLock l s) := by
  cases hm : meetsFalsePositive s.cfg (sc.window.drop sc.pos) <;> simp only [pollScan, setRingLock_cfg, hm] <;> split <;> rfl

section Turns

variable {s : State} {sc : Scan} (hscan : s.scan = some sc) (hr : ringReady s)
include hscan hr

/-- P1 (R171). -/
theorem pollTurn_clear (hphase : sc.phase = .start) (hrun : s.running = false) :
    pollTurn s = setRunning (ringDiscard (dataSize s) (drawn s)) := by
  simp only [pollTurn, hscan, hphase, hrun, Bool.false_eq_true, if_false]
  rw [pollClear, withRingLock_eq hr fun _ _ => rfl, dataSize_drawn]

/-- P2 and what follows it, with the window named W (R175 to R177). -/
theorem pollTurn_peek (hphase : sc.phase = .start) (hrun : s.running = true) {W : Bytes}
    (hW : (stored s).take s.cfg.maxLen = W) :
    pollTurn s =
      if W.length = 0 then pollEnd sc .ok 0 (drawn s)
      else if resyncCount s.cfg W > 0 then
        setScan (some { issuer := sc.issuer, phase := .resync, window := W, pos := resyncCount s.cfg W, base := 0, count := 0 })
          (emit (.rawRx W) (drawn s))
      else pollScan { sc with window := W, pos := 0, base := 0, count := 0 } (emit (.rawRx W) (drawn s)) := by
  have hpeek : ringPeek s.cfg.maxLen (drawn s) = W := by rw [ringPeek_eq, stored_drawn, hW]
  simp only [pollTurn, hscan, hphase, hrun, if_true]
  refine (withRingLock_eq hr fun l t => ?_).trans ?_
  · simp only [apply_ite (setRingLock l), setRingLock_pollScan]
    rfl
  · simp only [drawn_cfg, hpeek, hphase]

/-- P3 and what follows it (R177). -/
theorem pollTurn_resync (hphase : sc.phase = .resync) :
    pollTurn s = pollScan { sc with base := sc.pos, count := 0 } (ringDiscard sc.pos (drawn s)) := by
  simp only [pollTurn, hscan, hphase]
  exact withRingLock_eq hr fun l t => setRingLock_pollScan l _ _

/-- P4 and what follows it, at a frame that unpacks (R181). -/
theorem pollTurn_frame (hphase : sc.phase = .frame) {L : Nat} {F : Frame}
    (hu : unpack s.cfg (sc.window.drop sc.pos) = some (L, F)) :
    pollTurn s = pollScan { sc with base := sc.pos + L, count := sc.count + 1, pos := sc.pos + L }
      (emit (.decodedRx F) (setRxFrame F (ringDiscard (sc.pos + L - sc.base) (drawn s)))) := by
  simp only [pollTurn, hscan, hphase]
  rw [pollFrame, withRingLock_ready hr]
  simp only [setRingLock_cfg, drawn_cfg, hu, setRingLock_pollScan]
  rw [← release_hold hr.2]
  rfl

end Turns

/-- Without the lock the POLL ends there (60_exceptions.md R272). -/
theorem pollTurn_busy {s : State} {sc : Scan} (hs : s.Inv) (hscan : s.scan = some sc) (hf : lockFails s) :
    pollTurn s = pollEnd sc .lockBusy sc.count (drawn s) := by
  obtain ⟨-, hok⟩ := hs.scan_ok sc hscan
  simp only [pollTurn, hscan]
  cases hphase : sc.phase with
  | start =>
    simp only [Scan.Ok, hphase] at hok
    obtain ⟨-, -, -, hcount⟩ := hok
    rw [hcount]
    dsimp only
    split
    · exact withRingLock_busy hf
    · exact withRingLock_busy hf
  | resync =>
    simp only [Scan.Ok, hphase] at hok
    obtain ⟨-, -, -, -, -, hcount⟩ := hok
    rw [hcount]
    exact withRingLock_busy hf
  | frame => exact withRingLock_busy hf

/-! ### The stored bytes after a turn -/

@[simp] theorem stored_emit (e : Event) (s : State) : stored (emit e s) = stored s := stored_congr rfl rfl rfl rfl

@[simp] theorem stored_setRxFrame (F : Frame) (s : State) : stored (setRxFrame F s) = stored s := stored_congr rfl rfl rfl rfl

@[simp] theorem stored_setScan (o : Option Scan) (s : State) : stored (setScan o s) = stored s := stored_congr rfl rfl rfl rfl

theorem stored_ringDiscard_drawn {s : State} (hs : s.Inv) (n : Nat) :
    stored (ringDiscard n (drawn s)) = (stored s).drop n := by
  rw [stored_ringDiscard hs.drawn.two_le hs.drawn.ring, stored_drawn]

/-- Settles O50: discarding all the stored bytes moves `head` to `tail`. -/
theorem firstPollClears : Obligations.FirstPollClears := by
  intro s sc hs hscan hphase hrun hr
  have hcount : takeCount (dataSize s) s = dataSize s := Nat.min_self _
  rw [pollTurn_clear hscan hr hphase hrun]
  apply State.ext
  case head => simp [hcount, head_add_dataSize hs.ring, word16]
  case version => simp [hcount, bumpVersion]
  all_goals simp

/-- A window that does not begin with SYNC has bytes before its first SYNC (R177). -/
theorem resyncCount_pos {p : Params} {W : Bytes} (hW : W ≠ []) (h : W.getD 0 0 ≠ p.sync) : 0 < resyncCount p W := by
  refine Nat.pos_of_ne_zero fun h0 => h ?_
  have := getD_resyncCount (p := p) (W := W) (by rw [h0]; exact List.length_pos_iff.2 hW)
  rwa [h0] at this

/-- Settles O51: the branches of the window peek, which leaves the ring alone in each. -/
theorem pollPeeksWindow : Obligations.PollPeeksWindow := by
  intro s sc hs hscan hphase hrun hr W
  have hturn := pollTurn_peek hscan hr hphase hrun (W := W) rfl
  have hlen (hne : W ≠ []) : W.length ≠ 0 := fun h => hne (List.eq_nil_of_length_eq_zero h)
  refine ⟨fun hnil => ?_, fun hne => ?_, fun hne hsync => ?_⟩
  · rw [hturn, if_pos (by rw [hnil]; rfl)]
    apply State.ext <;> simp [word16]
  · rw [hturn, if_neg (hlen hne)]
    split <;> simp
  · have hk := resyncCount_pos hne hsync
    refine ⟨resyncCount s.cfg W, hk, resyncCount_le _ _, fun j => getD_ne_of_lt_resyncCount, getD_resyncCount, ?_⟩
    rw [hturn, if_neg (hlen hne), if_pos hk]
    apply State.ext <;> simp

/-- Settles O52: P3 is one discard, and what follows it touches neither the ring nor the events. -/
theorem pollResynchronizes : Obligations.PollResynchronizes := by
  intro s sc hs hscan hphase hr
  dsimp only
  rw [pollTurn_resync hscan hr hphase]
  refine ⟨?_, by simp, by simp, by simp, by simp, ?_⟩
  · rw [stored_pollScan, stored_ringDiscard_drawn hs]
  · rcases pollScan_outcome { sc with base := sc.pos, count := 0 } (ringDiscard sc.pos (drawn s)) with
      ⟨hend, hresp⟩ | ⟨hresp, i, -, -, hnext⟩
    · exact .inl ⟨hend, by simpa [word16] using hresp⟩
    · exact .inr ⟨by simpa using hresp, _, hnext, rfl, rfl, rfl, rfl⟩

/-- Settles O53: P4 is one discard and one event; a next match stands no earlier than where the scan goes on. -/
theorem pollDecodesFrame : Obligations.PollDecodesFrame := by
  intro s sc L F hs hscan hphase hr hu
  dsimp only
  rw [pollTurn_frame hscan hr hphase hu]
  refine ⟨?_, by simp, by simp, by simp, by simp, ?_, ?_⟩
  · rw [stored_pollScan, stored_emit, stored_setRxFrame, stored_ringDiscard_drawn hs]
  · simpa using pollScan_rxFrame { sc with base := sc.pos + L, count := sc.count + 1, pos := sc.pos + L }
      (emit (.decodedRx F) (setRxFrame F (ringDiscard (sc.pos + L - sc.base) (drawn s))))
  · rcases pollScan_outcome { sc with base := sc.pos + L, count := sc.count + 1, pos := sc.pos + L }
      (emit (.decodedRx F) (setRxFrame F (ringDiscard (sc.pos + L - sc.base) (drawn s)))) with
      ⟨hend, hresp⟩ | ⟨hresp, i, hle, -, hnext⟩
    · exact .inl ⟨hend, by simpa using hresp⟩
    · exact .inr ⟨by simpa using hresp, _, hnext, rfl, rfl, rfl, rfl, hle⟩

end Sys2Proof.Machine

/-! PROOF. The scan of R174 over a window: the loop and the matches it goes through, each codec's unpack of what its pack built, and
the windows that hold whole frames or the first part of one. -/

namespace Sys2Proof.Machine

/-! ### The loop of R174, read through `nextMatch` -/

/-- One turn of the loop, beside what the scan up to the next match does at the same index (R178 to R182): both stop, both pass a byte
over, or a frame stands there and fits. -/
theorem scanLoop_cases (p : Params) (W : Bytes) (fuel i base : Nat) :
    (nextMatch p i (W.drop i) = none ∧ scanLoop p W (fuel + 1) i base = ([], base)) ∨
    (nextMatch p i (W.drop i) = nextMatch p (i + 1) (W.drop (i + 1)) ∧
      scanLoop p W (fuel + 1) i base = scanLoop p W fuel (i + 1) base) ∨
    ∃ L F, nextMatch p i (W.drop i) = some i ∧ unpack p (W.drop i) = some (L, F) ∧ 1 ≤ L ∧
      scanLoop p W (fuel + 1) i base =
        (F :: (scanLoop p W fuel (i + L) (i + L)).1, (scanLoop p W fuel (i + L) (i + L)).2) := by
  by_cases hi : W.length ≤ i
  · exact .inl ⟨by rw [List.drop_of_length_le hi]; rfl, by rw [scanLoop, if_pos hi]⟩
  · have hd := List.drop_eq_getElem_cons (Nat.not_le.1 hi)
    have hget : W.getD i 0 = W[i] := List.getD_eq_getElem _ _ (Nat.not_le.1 hi)
    have hlen : (W[i] :: W.drop (i + 1)).length = W.length - i := by rw [← hd, List.length_drop]
    rw [scanLoop, if_neg hi, hget, hd, nextMatch, hlen]
    by_cases hs : W[i] = p.sync
    · rw [if_neg (not_not.2 hs), if_neg (not_not.2 hs)]
      by_cases hm : W.length - i < p.minLen
      · simp [hm]
      · rw [if_neg hm, if_neg hm]
        cases hu : unpack p (W[i] :: W.drop (i + 1)) with
        | none => exact .inr (.inl ⟨rfl, rfl⟩)
        | some found =>
          obtain ⟨L, F⟩ := found
          by_cases hL : L = 0 ∨ L > W.length - i
          · exact .inr (.inl ⟨if_pos hL, if_pos hL⟩)
          · exact .inr (.inr ⟨L, F, if_neg hL, rfl, by omega, if_neg hL⟩)
    · rw [if_pos hs, if_pos hs]
      exact .inr (.inl ⟨rfl, rfl⟩)

/-- The loop from index i on finds Fs and ends with base e: each turn is one match. -/
inductive Scans (p : Params) (W : Bytes) : Nat → Nat → List Frame → Nat → Prop
  | done {i base : Nat} (h : nextMatch p i (W.drop i) = none) : Scans p W i base [] base
  | frame {i base j L : Nat} {F : Frame} {Fs : List Frame} {e : Nat} (h : nextMatch p i (W.drop i) = some j)
      (hu : unpack p (W.drop j) = some (L, F)) (rest : Scans p W (j + L) (j + L) Fs e) : Scans p W i base (F :: Fs) e

/-- Passing over a byte is no turn of its own. -/
theorem Scans.of_nextMatch_eq {p : Params} {W : Bytes} {i i' base e : Nat} {Fs : List Frame} (h : Scans p W i' base Fs e)
    (heq : nextMatch p i (W.drop i) = nextMatch p i' (W.drop i')) : Scans p W i base Fs e := by
  cases h with
  | done hn => exact .done (heq.trans hn)
  | frame hj hu rest => exact .frame (heq.trans hj) hu rest

/-- `scanLoop`, with fuel for the rest of the window, is that loop. -/
theorem scanLoop_scans {p : Params} {W : Bytes} {fuel i base : Nat} (hf : W.length < i + fuel) :
    Scans p W i base (scanLoop p W fuel i base).1 (scanLoop p W fuel i base).2 := by
  induction fuel generalizing i base with
  | zero => exact .done (by rw [List.drop_of_length_le (by omega)]; rfl)
  | succ fuel ih =>
    rcases scanLoop_cases p W fuel i base with ⟨hn, h⟩ | ⟨heq, h⟩ | ⟨L, F, hj, hu, hL, h⟩ <;> rw [h]
    · exact .done hn
    · exact (ih (by omega)).of_nextMatch_eq heq
    · exact .frame hj hu (ih (by omega))

/-- The loop's result is determined: where `Scans` leads, `scanLoop` does. -/
theorem Scans.unique {p : Params} {W : Bytes} {i base e e' : Nat} {Fs Fs' : List Frame} (h : Scans p W i base Fs e)
    (h' : Scans p W i base Fs' e') : Fs = Fs' ∧ e = e' := by
  induction h generalizing Fs' with
  | done hn =>
    cases h' with
    | done _ => exact ⟨rfl, rfl⟩
    | frame hj _ _ => rw [hn] at hj; cases hj
  | frame hj hu rest ih =>
    cases h' with
    | done hn => rw [hn] at hj; cases hj
    | frame hj' hu' rest' =>
      obtain rfl := Option.some.inj (hj.symm.trans hj')
      obtain ⟨rfl, rfl⟩ := Prod.mk.inj (Option.some.inj (hu.symm.trans hu'))
      obtain ⟨rfl, rfl⟩ := ih rest'
      exact ⟨rfl, rfl⟩

theorem scanAll_scans (p : Params) (W : Bytes) :
    Scans p W (resyncCount p W) (resyncCount p W) (scanAll p W).1 (scanAll p W).2 :=
  scanLoop_scans (by omega)

theorem scanAll_eq {p : Params} {W : Bytes} {Fs : List Frame} {e : Nat}
    (h : Scans p W (resyncCount p W) (resyncCount p W) Fs e) : scanAll p W = (Fs, e) := by
  obtain ⟨h1, h2⟩ := (scanAll_scans p W).unique h
  exact Prod.ext h1 h2

/-- The first SYNC of a string is behind the bytes that are not SYNC. -/
theorem resyncCount_append {p : Params} {G X : Bytes} (hG : ∀ b ∈ G, b ≠ p.sync) (hX : X ≠ [] → X.getD 0 0 = p.sync) :
    resyncCount p (G ++ X) = G.length := by
  have hX0 : X.findIdx (· = p.sync) = 0 := by
    cases X with
    | nil => rfl
    | cons b bs => simp [List.findIdx_cons, show b = p.sync by simpa using hX (by simp)]
  rw [resyncCount, List.findIdx_append, List.findIdx_eq_length.2 (by simpa using hG)]
  simp [hX0]

/-! ### unpack of a packed CRC frame (R221) -/

/-- The two CRC bytes stand behind the header and the payload (R213). -/
theorem crcPack_eq {p : Params} {cmd : Byte} {P : Bytes} (h : P.length ≤ 255) :
    crcPack p cmd P = crcHeader p cmd P ++
      [crcLo (crc16 p (crcHeader p cmd P)), crcHi (crc16 p (crcHeader p cmd P))] := by
  rw [crcPack, if_neg (Nat.not_lt.2 h)]

/-- The length byte of a CRC frame holds the payload's length. -/
theorem crcLength_toNat {P : Bytes} (h : P.length ≤ 255) : (BitVec.ofNat 8 P.length).toNat = P.length := by
  rw [BitVec.toNat_ofNat, Nat.mod_eq_of_lt (by omega)]

theorem crcUnpack_crcPack {p : Params} {cmd : Byte} {P Y : Bytes} (hP : P.length ≤ 255) (hY : p.minLen ≤ 5 + Y.length) :
    crcUnpack p (crcPack p cmd P ++ Y) = some (P.length + 5, cmd, P) := by
  have hlen : (crcPack p cmd P ++ Y).length = P.length + 5 + Y.length := by rw [List.length_append, crcPack_length hP]
  have hH : (crcHeader p cmd P).length = P.length + 3 := crcHeader_length p cmd P
  generalize hX : crcPack p cmd P ++ Y = X at hlen
  rw [crcPack_eq hP] at hX
  have h0 : X.getD 0 0 = p.sync := by simp [← hX, crcHeader]
  have h1 : X.getD 1 0 = cmd := by simp [← hX, crcHeader]
  have h2 : (X.getD 2 0).toNat = P.length := by
    rw [show X.getD 2 0 = BitVec.ofNat 8 P.length by simp [← hX, crcHeader], crcLength_toNat hP]
  have htake : X.take (P.length + 3) = crcHeader p cmd P := by rw [← hX, List.append_assoc, ← hH, List.take_left]
  have hlo : X.getD (P.length + 3) 0 = crcLo (crc16 p (crcHeader p cmd P)) := by
    rw [← hX, List.append_assoc, ← hH, List.getD_append_right _ _ _ _ (Nat.le_refl _)]
    simp
  have hhi : X.getD (P.length + 4) 0 = crcHi (crc16 p (crcHeader p cmd P)) := by
    rw [← hX, List.append_assoc, List.getD_append_right _ _ _ _ (by omega), hH]
    simp
  have hpay : (X.drop 3).take P.length = P := by simp [← hX, crcHeader]
  rw [crcUnpack]
  simp only [h2, htake, hlo, hhi, h1, hpay, h0]
  rw [if_neg (by simp; omega), if_neg (by omega), if_neg (by omega), if_neg (by simp)]

/-! ### unpack of a packed SLIP frame (R250) -/

/-- Stuffed content holds no closing delimiter: every END is preceded by an ESC (R244). -/
theorem slipClose_slipStuff {p : Params} (S Y : Bytes) (k : Nat) :
    slipClose k false (slipStuff p S ++ slipEnd :: Y) = some (k + (slipStuff p S).length) := by
  induction S generalizing k with
  | nil => simp [slipStuff, slipClose, slipEnd, slipEsc]
  | cons b S ih =>
    have hcons : slipStuff p (b :: S) = slipEscape p b ++ slipStuff p S := rfl
    rw [hcons, List.append_assoc, slipEscape]
    by_cases hE : b = slipEnd
    · rw [if_pos hE]
      simp [slipClose, ih]
      omega
    · by_cases hS : b = slipEsc
      · rw [if_neg hE, if_pos hS]
        simp [slipClose, ih]
        omega
      · rw [if_neg hE, if_neg hS]
        simp [slipClose, ih, hE, hS]
        omega

theorem slipUnstuff_of_ne {p : Params} {b : Byte} (h : b ≠ slipEsc) (rest : Bytes) :
    slipUnstuff p (b :: rest) = (slipUnstuff p rest).map (b :: ·) := by
  cases rest with
  | nil => simp [slipUnstuff, h]
  | cons e rest => rw [slipUnstuff, if_neg h]

/-- Unstuffing undoes stuffing, when ESC_END and ESC_ESC differ (R244, R246). -/
theorem slipUnstuff_slipStuff {p : Params} (h : p.slipEscEsc ≠ p.slipEscEnd) (S : Bytes) :
    slipUnstuff p (slipStuff p S) = some S := by
  induction S with
  | nil => rfl
  | cons b S ih =>
    have hcons : slipStuff p (b :: S) = slipEscape p b ++ slipStuff p S := rfl
    rw [hcons, slipEscape]
    by_cases hE : b = slipEnd
    · rw [if_pos hE]
      simp [slipUnstuff, ih, hE]
    · by_cases hS : b = slipEsc
      · rw [if_neg hE, if_pos hS]
        simp [slipUnstuff, ih, hS, h]
      · rw [if_neg hE, if_neg hS, List.singleton_append, slipUnstuff_of_ne hS, ih]
        rfl

theorem slipPack_eq {p : Params} {D : Bytes} (h : 1 ≤ D.length) :
    slipPack p D = slipEnd :: (slipStuff p (D ++ [slipChecksum D]) ++ [slipEnd]) := by
  rw [slipPack, if_neg (by omega)]
  rfl

theorem slipUnpack_slipPack {p : Params} {D Y : Bytes} (h : p.slipEscEsc ≠ p.slipEscEnd) (hD : 1 ≤ D.length) :
    slipUnpack p (slipPack p D ++ Y) = some ((slipPack p D).length, D) := by
  rw [slipPack_eq hD]
  generalize hT : slipStuff p (D ++ [slipChecksum D]) = T
  have hclose : slipClose 1 false ((slipEnd :: (T ++ [slipEnd]) ++ Y).drop 1) = some (1 + T.length) := by
    rw [← hT, ← slipClose_slipStuff _ Y]
    simp
  have hcontent : ((slipEnd :: (T ++ [slipEnd]) ++ Y).take (1 + T.length)).drop 1 = T := by
    simp [Nat.add_comm 1]
  have hunstuff : slipUnstuff p T = some (D ++ [slipChecksum D]) := hT ▸ slipUnstuff_slipStuff h _
  rw [slipUnpack, if_neg (by simp)]
  simp only [hclose, hcontent, hunstuff]
  rw [if_neg (by rw [List.length_append, List.length_singleton]; omega)]
  simp [Nat.add_comm 1]

/-! ### pack and unpack of the block's codec -/

/-- The codec finds a packed frame again, whatever follows it (R221, R250). -/
theorem unpack_pack {p : Params} (hl : legal p = true) {F : Frame} (hF : F.fits p.codec) (Y : Bytes) :
    unpack p (pack p F ++ Y) = some ((pack p F).length, F) := by
  cases F with
  | crc cmd P =>
    obtain ⟨hc, hP⟩ := hF
    have hmin := legal_crc hl hc
    simp only [unpack, hc, pack, crcUnpack_crcPack hP (show p.minLen ≤ 5 + Y.length by omega), crcPack_length hP]
    rfl
  | slip D =>
    obtain ⟨hc, hD⟩ := hF
    obtain ⟨-, -, -, -, hcodes⟩ := legal_codes hl
    simp only [unpack, hc, pack, slipUnpack_slipPack hcodes.symm hD]
    rfl

/-- A packed frame begins with SYNC (R213, R245, 00_scope.md R8). -/
theorem getD_pack {p : Params} (hl : legal p = true) {F : Frame} (hF : F.fits p.codec) : (pack p F).getD 0 0 = p.sync := by
  cases F with
  | crc cmd P => simp [pack, crcPack_eq hF.2, crcHeader]
  | slip D => simp [pack, slipPack_eq hF.2, legal_slip hl hF.1]

theorem pack_length_pos {p : Params} {F : Frame} (hF : F.fits p.codec) : 0 < (pack p F).length := by
  cases F with
  | crc cmd P => simp [pack, crcPack_length hF.2]
  | slip D => simp [pack, slipPack_eq hF.2]

/-! ### Garbage, then frames back to back (R185, R186) -/

/-- A SYNC with a frame that fits is a match. -/
theorem nextMatch_of_frame {p : Params} {i L : Nat} {X : Bytes} {F : Frame} (hs : X.getD 0 0 = p.sync)
    (hmin : p.minLen ≤ X.length) (hu : unpack p X = some (L, F)) (h0 : 0 < L) (hL : L ≤ X.length) :
    nextMatch p i X = some i := by
  cases X with
  | nil => simp at hL; omega
  | cons b bs =>
    have hb : b = p.sync := hs
    rw [nextMatch, if_neg (not_not.2 hb), if_neg (Nat.not_lt.2 hmin), hu]
    exact if_neg (by omega)

/-- Where a packed frame of at least FRAME_MIN bytes stands, the scan matches it. -/
theorem nextMatch_pack {p : Params} (hl : legal p = true) {F : Frame} (hF : F.fits p.codec)
    (hmin : p.minLen ≤ (pack p F).length) (Y : Bytes) (i : Nat) : nextMatch p i (pack p F ++ Y) = some i := by
  have hpos := pack_length_pos hF
  have hlen : (pack p F).length ≤ (pack p F ++ Y).length := by simp
  refine nextMatch_of_frame ?_ (hmin.trans hlen) (unpack_pack hl hF Y) hpos hlen
  rw [List.getD_append _ _ _ _ hpos, getD_pack hl hF]

/-- The loop decodes frames back to back, from the index of the first on. -/
theorem scans_packed {p : Params} (hl : legal p = true) {Fs : List Frame}
    (hFs : ∀ F ∈ Fs, F.fits p.codec ∧ p.minLen ≤ (pack p F).length) (A : Bytes) :
    Scans p (A ++ (Fs.map (pack p)).flatten) A.length A.length Fs (A ++ (Fs.map (pack p)).flatten).length := by
  induction Fs generalizing A with
  | nil => simpa using Scans.done (W := A) (by simp [nextMatch])
  | cons F Fs ih =>
    obtain ⟨hF, hmin⟩ := hFs F (List.mem_cons_self ..)
    have hrest := ih (fun G hG => hFs G (List.mem_cons_of_mem _ hG)) (A ++ pack p F)
    rw [List.length_append (bs := pack p F), List.append_assoc] at hrest
    rw [List.map_cons, List.flatten_cons]
    refine .frame (j := A.length) ?_ ?_ hrest
    · rw [List.drop_left]; exact nextMatch_pack hl hF hmin _ _
    · rw [List.drop_left]; exact unpack_pack hl hF _

/-- Settles O58: the resynchronization passes the garbage, and the loop finds each frame where it was packed. -/
theorem garbageThenFramesDecoded : Obligations.GarbageThenFramesDecoded := by
  intro p G Fs hl hG hFs
  refine scanAll_eq ?_
  rw [resyncCount_append hG]
  · exact scans_packed hl hFs G
  · intro hne
    cases Fs with
    | nil => exact absurd rfl hne
    | cons F Fs =>
      obtain ⟨hF, -⟩ := hFs F (List.mem_cons_self ..)
      rw [List.map_cons, List.flatten_cons, List.getD_append _ _ _ _ (pack_length_pos hF), getD_pack hl hF]

/-! ### The first part of a frame (R184) -/

/-- Without an END no closing delimiter is found. -/
theorem slipClose_none {X : Bytes} (h : ∀ b ∈ X, b ≠ slipEnd) (k : Nat) (esc : Bool) : slipClose k esc X = none := by
  induction X generalizing k esc with
  | nil => rfl
  | cons b bs ih =>
    have hb := h b (List.mem_cons_self ..)
    have ih' := ih fun c hc => h c (List.mem_cons_of_mem _ hc)
    simp [slipClose, hb, ih']

theorem slipUnpack_none {p : Params} {X : Bytes} (h : ∀ b ∈ X.drop 1, b ≠ slipEnd) : slipUnpack p X = none := by
  rw [slipUnpack, slipClose_none h]
  split <;> rfl

/-- A CRC frame found is as long as its length byte says, so a first part of one is not a frame. -/
theorem crcUnpack_take_crcPack {p : Params} {cmd : Byte} {P : Bytes} {k : Nat} (hP : P.length ≤ 255)
    (hk : k < (crcPack p cmd P).length) : crcUnpack p ((crcPack p cmd P).take k) = none := by
  refine Option.eq_none_iff_forall_ne_some.2 fun ⟨L, c, P'⟩ h => ?_
  obtain ⟨-, hL, -, -, hle, -⟩ := crcUnpack_some h
  rw [List.length_take_of_le (Nat.le_of_lt hk)] at hle
  have hn : ((crcPack p cmd P).take k).getD 2 0 = BitVec.ofNat 8 P.length := by
    rw [List.getD_eq_getElem?_getD, List.getElem?_take_of_lt (by omega)]
    simp [crcPack_eq hP, crcHeader]
  rw [hn, crcLength_toNat hP] at hL
  rw [crcPack_length hP] at hk
  omega

/-- A proper first part of a packed frame, with no second SYNC, unpacks to nothing. -/
theorem unpack_take_pack {p : Params} (hl : legal p = true) {F : Frame} (hF : F.fits p.codec) {k : Nat}
    (hk : k < (pack p F).length) (hsync : ∀ b ∈ ((pack p F).take k).drop 1, b ≠ p.sync) :
    unpack p ((pack p F).take k) = none := by
  cases F with
  | crc cmd P => simp only [unpack, hF.1, pack, crcUnpack_take_crcPack hF.2 hk, Option.map_none]
  | slip D =>
    rw [legal_slip hl hF.1] at hsync
    simp only [unpack, hF.1, slipUnpack_none hsync, Option.map_none]

/-- Where no sync position yields a frame the loop finds nothing, and discards what stands before the first SYNC. -/
theorem scanAll_of_noMatch {p : Params} {W : Bytes} (h : noMatch p W) : scanAll p W = ([], resyncCount p W) := by
  refine scanAll_eq (.done (nextMatch_none fun k hk hs => ?_))
  rw [List.length_drop] at hk
  rw [List.drop_drop]
  rw [List.getD_eq_getElem?_getD, List.getElem?_drop, ← List.getD_eq_getElem?_getD] at hs
  exact h _ (by omega) hs

/-- Settles O59: the only SYNC of the first part is its first byte, and nothing unpacks there. -/
theorem splitFrameWaits : Obligations.SplitFrameWaits := by
  intro p F k hl hF h0 hk hsync
  have hlen : ((pack p F).take k).length = k := List.length_take_of_le (Nat.le_of_lt hk)
  have hfirst : ((pack p F).take k).getD 0 0 = p.sync := by
    rw [List.getD_eq_getElem?_getD, List.getElem?_take_of_lt h0, ← List.getD_eq_getElem?_getD, getD_pack hl hF]
  have hcount : resyncCount p ((pack p F).take k) = 0 := by
    simpa using resyncCount_append (p := p) (G := []) (by simp) fun _ => hfirst
  rw [scanAll_of_noMatch, hcount]
  intro i hi hs
  cases i with
  | zero => exact unpack_take_pack hl hF hk hsync
  | succ i =>
    rw [List.getD_eq_getElem _ _ hi] at hs
    refine absurd hs (hsync _ ?_)
    rw [List.mem_iff_getElem]
    exact ⟨i, by rw [List.length_drop]; omega, by simp⟩

end Sys2Proof.Machine

/-! PROOF. A POLL left to itself: its run turn by turn, that it ends, and that it does what the loop of R174 does with its window. -/

namespace Sys2Proof.Machine

/-! ### Steps with nothing scheduled are turns of the POLL -/

theorem withRingLock_inputs {busy body : State → State} {s : State} (hbusy : ∀ t, (busy t).inputs = t.inputs)
    (hbody : ∀ t, (body t).inputs = t.inputs) : (withRingLock busy body s).inputs = s.inputs := by
  rcases withRingLock_cases busy body s with h | ⟨-, h⟩ <;> simp [h, hbusy, hbody]

/-- A turn of the POLL takes nothing from the schedule. -/
theorem pollTurn_inputs (s : State) : (pollTurn s).inputs = s.inputs := by
  unfold pollTurn
  cases s.scan with
  | none => rfl
  | some sc =>
    dsimp only
    cases sc.phase with
    | start =>
      dsimp only
      split
      · refine withRingLock_inputs (fun _ => rfl) fun t => ?_
        dsimp only
        split_ifs <;> simp
      · exact withRingLock_inputs (fun _ => rfl) fun _ => rfl
    | resync => exact withRingLock_inputs (fun _ => rfl) fun _ => by simp
    | frame =>
      refine withRingLock_inputs (fun _ => rfl) fun t => ?_
      dsimp only
      split <;> simp

theorem pollTurn_cfg (s : State) : (pollTurn s).cfg = s.cfg := by
  cases pollTurn_effect s with
  | kept h => exact h.cfg
  | discard n h => exact h.cfg
  | clear _ _ _ h => exact h.cfg

theorem run_succ {s t : State} (h : step s = .next t) (k : Nat) :
    Host.Core.run Sys2Proof.core (k + 1) s = Host.Core.run Sys2Proof.core k t := by
  have hcore : Sys2Proof.core.step s = .next t := h
  simp only [Host.Core.run, hcore]

/-- The run of a block with nothing scheduled. -/
theorem run_eq_pollTurn_iterate {s : State} (hl : legal s.cfg = true) (hi : s.inputs = []) (k : Nat) :
    Host.Core.run Sys2Proof.core k s = .next (pollTurn^[k] s) := by
  induction k generalizing s with
  | zero => rfl
  | succ k ih =>
    rw [run_succ (step_of_inputs_nil hl hi)]
    exact ih (by rwa [pollTurn_cfg]) (by rwa [pollTurn_inputs])

/-! ### Every POLL ends (R172, R182, R183) -/

/-- At most this many turns of an active POLL follow its next one. -/
def Scan.turnsAfter (p : Params) (running : Bool) (sc : Scan) : Nat :=
  match sc.phase with
  | .start => if running then p.maxLen + 1 else p.maxLen + 2
  | .resync => p.maxLen
  | .frame => sc.window.length - sc.pos - 1

theorem Scan.Ok.turnsAfter_lt {p : Params} {running : Bool} {sc : Scan} (h : sc.Ok p running) :
    sc.turnsAfter p running < p.maxLen + 3 := by
  unfold Scan.turnsAfter
  cases hphase : sc.phase with
  | start => dsimp only; split <;> omega
  | resync => dsimp only; omega
  | frame =>
    simp only [Scan.Ok, hphase] at h
    obtain ⟨-, hW, -⟩ := h
    dsimp only
    omega

/-- What a turn of a POLL of this issuer has led to: its one response, or a waiting point with fewer than n turns after the next. -/
inductive TurnResult (issuer n : Nat) (s t : State) : Prop
  | ended (r : Response) (hscan : t.scan = none) (hresp : t.responses = s.responses ++ [r]) (hissuer : r.issuer = issuer)
      (hstatus : r.status = .ok ∨ r.status = .lockBusy)
  | goesOn (sc : Scan) (hscan : t.scan = some sc) (hissuer : sc.issuer = issuer) (hresp : t.responses = s.responses)
      (hless : sc.turnsAfter t.cfg t.running < n)

theorem pollEnd_result {sc : Scan} {s u : State} {n : Nat} {st : Status} {r : Nat} (hu : u.responses = s.responses)
    (hst : st = .ok ∨ st = .lockBusy) : TurnResult sc.issuer n s (pollEnd sc st r u) :=
  .ended _ (pollEnd_scan ..) (by rw [pollEnd_responses, hu]) rfl hst

/-- Going on with the scan ends the POLL, or leaves less of the window than there is from the scan index on. -/
theorem pollScan_result {sc : Scan} {s u : State} {issuer n : Nat} (hissuer : sc.issuer = issuer) (hu : u.responses = s.responses)
    (hn : sc.pos < sc.window.length → sc.window.length - sc.pos ≤ n) : TurnResult issuer n s (pollScan sc u) := by
  rcases pollScan_outcome sc u with ⟨hend, hresp⟩ | ⟨hresp, i, hle, hlt, hnext⟩
  · exact .ended _ hend (hu ▸ hresp) hissuer (.inl rfl)
  · refine .goesOn _ hnext hissuer (hresp.trans hu) ?_
    simp only [Scan.turnsAfter]
    omega

/-- One turn brings the POLL nearer to its end. -/
theorem pollTurn_result {s : State} {sc : Scan} (hs : s.Inv) (hscan : s.scan = some sc) :
    TurnResult sc.issuer (sc.turnsAfter s.cfg s.running) s (pollTurn s) := by
  obtain ⟨-, hok⟩ := hs.scan_ok sc hscan
  rcases ringReady_or_fails hs.ring_free with hr | hf
  · cases hphase : sc.phase with
    | start =>
      cases hrun : s.running with
      | false =>
        rw [pollTurn_clear hscan hr hphase hrun]
        exact .goesOn sc (by simpa using hscan) rfl (by simp) (by simp [Scan.turnsAfter, hphase])
      | true =>
        have hW : ((stored s).take s.cfg.maxLen).length ≤ s.cfg.maxLen := List.length_take_le _ _
        rw [pollTurn_peek hscan hr hphase hrun rfl]
        split_ifs
        · exact pollEnd_result (drawn_responses s) (.inl rfl)
        · exact .goesOn _ rfl rfl (by simp) (by simp [Scan.turnsAfter, hphase])
        · exact pollScan_result rfl (by simp) fun _ => by simp only [Scan.turnsAfter, hphase, if_true]; omega
    | resync =>
      rw [pollTurn_resync hscan hr hphase]
      simp only [Scan.Ok, hphase] at hok
      obtain ⟨-, hW, -⟩ := hok
      exact pollScan_result rfl (by simp) fun _ => by simp only [Scan.turnsAfter, hphase]; omega
    | frame =>
      simp only [Scan.Ok, hphase] at hok
      obtain ⟨-, -, -, -, L, F, hu, hL, -⟩ := hok
      rw [pollTurn_frame hscan hr hphase hu]
      exact pollScan_result rfl (by simp) fun h => by simp only [Scan.turnsAfter, hphase]; dsimp only at h ⊢; omega
  · rw [pollTurn_busy hs hscan hf]
    exact pollEnd_result (drawn_responses s) (.inr rfl)

theorem poll_ends {n : Nat} {s : State} {sc : Scan} (hs : s.Inv) (hscan : s.scan = some sc)
    (hn : sc.turnsAfter s.cfg s.running < n) :
    ∃ k r, k ≤ n ∧ (pollTurn^[k] s).scan = none ∧ (pollTurn^[k] s).responses = s.responses ++ [r] ∧ r.issuer = sc.issuer ∧
      (r.status = .ok ∨ r.status = .lockBusy) := by
  induction n generalizing s sc with
  | zero => omega
  | succ n ih =>
    cases pollTurn_result hs hscan with
    | ended r hend hresp hissuer hstatus => exact ⟨1, r, by omega, hend, hresp, hissuer, hstatus⟩
    | goesOn sc' hscan' hissuer hresp hless =>
      obtain ⟨k, r, hk, hend, hresp', hissuer', hstatus⟩ := ih hs.pollTurn hscan' (by omega)
      exact ⟨k + 1, r, by omega, hend, by rw [← hresp]; exact hresp', hissuer'.trans hissuer, hstatus⟩

/-- Settles O56: each turn ends the POLL or leaves it fewer turns (`pollTurn_result`). -/
theorem pollAlwaysEnds : Obligations.PollAlwaysEnds := by
  intro s sc hs hi hscan
  obtain ⟨-, hok⟩ := hs.scan_ok sc hscan
  obtain ⟨k, r, hk, h⟩ := poll_ends hs hscan hok.turnsAfter_lt
  exact ⟨k, _, r, hk, run_eq_pollTurn_iterate hs.legal hi k, h⟩

/-! ### A POLL does what the loop of R174 does -/

/-- The loop finds no more frames than there are bytes from its scan index on. -/
theorem Scans.length_le {p : Params} {W : Bytes} {i base e : Nat} {Fs : List Frame} (h : Scans p W i base Fs e)
    (hi : i ≤ W.length) : i + Fs.length ≤ W.length := by
  induction h with
  | done _ => exact hi
  | frame hj hu _ ih =>
    obtain ⟨hle, hlt, L, F, hu', hL, hfit⟩ := nextMatch_some hj
    rw [List.drop_drop, Nat.add_sub_cancel' hle] at hu'
    rw [List.length_drop] at hlt hfit
    obtain ⟨rfl, rfl⟩ := Prod.mk.inj (Option.some.inj (hu.symm.trans hu'))
    have := ih (by omega)
    rw [List.length_cons]
    omega

/-- The loop's base only moves on. -/
theorem Scans.base_le {p : Params} {W : Bytes} {i base e : Nat} {Fs : List Frame} (h : Scans p W i base Fs e)
    (hb : base ≤ i) : base ≤ e := by
  induction h with
  | done _ => exact Nat.le_refl _
  | frame hj _ _ ih =>
    obtain ⟨hle, -⟩ := nextMatch_some hj
    have := ih (Nat.le_refl _)
    omega

/-- From s to t a POLL of this issuer has decoded Fs, removed n bytes from the ring, and ended with (OK, count). -/
structure Polled (issuer count n : Nat) (Fs : List Frame) (s t : State) : Prop where
  scan : t.scan = none
  events : t.events = s.events ++ Fs.map .decodedRx
  responses : t.responses = s.responses ++ [{ issuer := issuer, status := .ok, result := word16 count, dout := [] }]
  stored : stored t = (stored s).drop n
  sink : t.sink = s.sink

/-- The micro-steps that follow a scan go through the loop's turns, one P4 for each frame. -/
theorem pollTurn_iterate_scans {p : Params} {W : Bytes} {i base e : Nat} {Fs : List Frame} (h : Scans p W i base Fs e)
    (hb : base ≤ i) {sc : Scan} {u : State} (hs : (pollScan sc u).Inv) (hW : sc.window = W) (hi : sc.pos = i)
    (hbase : sc.base = base) (hp : u.cfg = p) (hn : p.lockFailMode = .never) :
    Polled sc.issuer (sc.count + Fs.length) (e - base) Fs u (pollTurn^[Fs.length] (pollScan sc u)) := by
  induction h generalizing sc u with
  | done hm =>
    subst hW hi hp
    obtain ⟨hscan, hresp⟩ := pollScan_of_none hm
    exact ⟨hscan, by simp, hresp, by simp, by simp⟩
  | @frame i base j L F Fs e hj hu rest ih =>
    subst hW hi hbase hp
    obtain ⟨hscan, hresp⟩ := pollScan_of_some hj
    have hle := (nextMatch_some hj).1
    have he := rest.base_le (Nat.le_refl _)
    have hturn := pollTurn_frame hscan (hs.ringReady_never (by simpa using hn)) rfl (by simpa using hu)
    have hnext := hs.pollTurn
    dsimp only at hturn
    rw [hturn] at hnext
    obtain ⟨hend, hev, hre, hst, hsi⟩ := ih (Nat.le_refl _) hnext rfl rfl rfl (by simp)
    rw [List.length_cons, Function.iterate_succ_apply, hturn]
    refine ⟨hend, by simpa using hev, ?_, ?_, by simpa using hsi⟩
    · simpa [hresp, Nat.add_assoc, Nat.add_comm 1] using hre
    · rw [hst, stored_emit, stored_setRxFrame, stored_ringDiscard_drawn hs, stored_pollScan, List.drop_drop]
      congr 1
      omega

/-- A POLL with a window that is not empty comes within two turns to the loop's start: the first SYNC, the bytes before it gone. -/
theorem poll_reaches_scan {s : State} {sc : Scan} (hs : s.Inv) (hn : s.cfg.lockFailMode = .never) (hscan : s.scan = some sc)
    (hphase : sc.phase = .start) (hrun : s.running = true) {W : Bytes} (hW : (stored s).take s.cfg.maxLen = W) (hne : W ≠ []) :
    ∃ m u ph, m ≤ 2 ∧ (pollTurn^[m] s).Inv ∧
      pollTurn^[m] s = pollScan (.mk sc.issuer ph W (resyncCount s.cfg W) (resyncCount s.cfg W) 0) u ∧
      u.cfg = s.cfg ∧ u.events = s.events ++ [.rawRx W] ∧ u.responses = s.responses ∧
      stored u = (stored s).drop (resyncCount s.cfg W) ∧ u.sink = s.sink := by
  have hturn := pollTurn_peek hscan (hs.ringReady_never hn) hphase hrun hW
  rw [if_neg (fun h => hne (List.eq_nil_of_length_eq_zero h))] at hturn
  by_cases hk : resyncCount s.cfg W > 0
  · rw [if_pos hk] at hturn
    have hs1 := hs.pollTurn
    rw [hturn] at hs1
    have hturn2 := pollTurn_resync rfl (hs1.ringReady_never (by simpa using hn)) rfl
    refine ⟨2, _, .resync, by omega, hs.pollTurn.pollTurn, (congrArg pollTurn hturn).trans hturn2, by simp, by simp, by simp, ?_,
      by simp⟩
    rw [stored_ringDiscard_drawn hs1, stored_setScan, stored_emit, stored_drawn]
  · rw [if_neg hk] at hturn
    have hk0 : resyncCount s.cfg W = 0 := by omega
    rw [hk0]
    exact ⟨1, _, .start, by omega, hs.pollTurn, hturn, by simp, by simp, by simp, by simp, by simp⟩

/-- Settles O55: the POLL reaches the loop's start (`poll_reaches_scan`) and goes through its turns (`pollTurn_iterate_scans`). -/
theorem pollMatchesPseudocode : Obligations.PollMatchesPseudocode := by
  intro s sc hs hi hn hscan hphase hrun
  dsimp only
  generalize hW : (stored s).take s.cfg.maxLen = W
  by_cases hne : W = []
  · have hturn := pollTurn_peek hscan (hs.ringReady_never hn) hphase hrun hW
    rw [if_pos (by rw [hne]; rfl), drawn_never hn] at hturn
    subst hne
    refine ⟨1, _, by omega, run_eq_pollTurn_iterate hs.legal hi 1, ?_⟩
    have hscan0 : scanAll s.cfg [] = ([], 0) := rfl
    rw [Function.iterate_one, hturn, hscan0]
    exact ⟨rfl, by simp, rfl, rfl, rfl⟩
  · have hscans := scanAll_scans s.cfg W
    have hlen := hscans.length_le (resyncCount_le _ _)
    have hbase := hscans.base_le (Nat.le_refl _)
    have hWlen : W.length ≤ s.cfg.maxLen := hW ▸ List.length_take_le _ _
    obtain ⟨m, u, ph, hm, hinv, hreach, hcfg, hev, hre, hst, hsi⟩ := poll_reaches_scan hs hn hscan hphase hrun hW hne
    rw [hreach] at hinv
    obtain ⟨hend, hev', hre', hst', hsi'⟩ := pollTurn_iterate_scans hscans (Nat.le_refl _) hinv rfl rfl rfl hcfg hn
    rw [← hreach, ← Function.iterate_add_apply] at hend hev' hre' hst' hsi'
    refine ⟨_, _, ?_, run_eq_pollTurn_iterate hs.legal hi ((scanAll s.cfg W).1.length + m), hend, ?_, ?_, ?_, hsi'.trans hsi⟩
    · omega
    · rw [hev', hev, if_neg hne]
    · rw [hre', hre, Nat.zero_add]
    · rw [hst', hst, List.drop_drop, Nat.add_sub_cancel' hbase]

end Sys2Proof.Machine

/-! PROOF. The CRC-16 generator and the length+CRC16 codec (42_crc16.md): the shift register is linear and loses nothing, so the two
forms of R212 agree and one changed byte changes the CRC; unpack finds a frame exactly where pack's bytes begin its input. -/

namespace Sys2Proof.Machine

/-! ### One shift of the register (R211) -/

/-- The generator's constant term is 1, so the low bit after a shift is the top bit that the shift dropped. -/
theorem crcShift_getLsbD_zero (c : Word16) : (crcShift c).getLsbD 0 = c.msb := by
  cases h : c.msb <;> simp [crcShift, h, crcPoly]

/-- The shift is linear over GF(2). -/
theorem crcShift_xor (a b : Word16) : crcShift (a ^^^ b) = crcShift a ^^^ crcShift b := by
  have hcancel (x y : Word16) : x ^^^ y = x ^^^ crcPoly ^^^ (y ^^^ crcPoly) := by
    rw [BitVec.xor_comm y, BitVec.xor_assoc, ← BitVec.xor_assoc crcPoly, BitVec.xor_self, BitVec.zero_xor]
  simp only [crcShift, BitVec.msb_xor, BitVec.shiftLeft_xor_distrib]
  cases a.msb <;> cases b.msb
  · rfl
  · exact BitVec.xor_assoc ..
  · simp only [Bool.xor_false, if_true, Bool.false_eq_true, if_false]
    ac_rfl
  · simpa using hcancel _ _

theorem crcShift8_xor (a b : Word16) : crcShift8 (a ^^^ b) = crcShift8 a ^^^ crcShift8 b := by
  simp only [crcShift8, crcShift_xor]

/-- The shift loses nothing: its low bit is the top bit it dropped (`crcShift_getLsbD_zero`). -/
theorem crcShift_injective : Function.Injective crcShift := by
  intro a b h
  have hmsb : a.msb = b.msb := by rw [← crcShift_getLsbD_zero, h, crcShift_getLsbD_zero]
  have hshift : a <<< 1 = b <<< 1 := by
    cases hb : b.msb <;> simpa [crcShift, hmsb, hb] using h
  rw [BitVec.msb_eq_decide, BitVec.msb_eq_decide, decide_eq_decide] at hmsb
  have hnat := congrArg BitVec.toNat hshift
  simp only [BitVec.toNat_shiftLeft, Nat.shiftLeft_eq] at hnat
  apply BitVec.eq_of_toNat_eq
  omega

theorem crcShift8_injective : Function.Injective crcShift8 := crcShift_injective.iterate 8

/-- While the top bits are 0 there is no feedback. -/
theorem crcShift_iterate_of_lt {c : Word16} {k : Nat} (h : c.toNat * 2 ^ k < 2 ^ 16) : crcShift^[k] c = c <<< k := by
  induction k with
  | zero => simp
  | succ k ih =>
    rw [Nat.pow_succ, ← Nat.mul_assoc] at h
    have hmsb : (c <<< k).msb = false := by
      rw [BitVec.msb_eq_false_iff_two_mul_lt, BitVec.toNat_shiftLeft, Nat.shiftLeft_eq, Nat.mod_eq_of_lt (by omega)]
      omega
    rw [Function.iterate_succ_apply', ih (by omega), crcShift, hmsb, if_neg Bool.false_ne_true, ← BitVec.shiftLeft_add]

/-- The low byte of the register moves up unchanged. -/
theorem crcShift8_byte (b : Byte) : crcShift8 (b.setWidth 16) = b.setWidth 16 <<< 8 := by
  have hb := b.isLt
  exact crcShift_iterate_of_lt (k := 8) (by rw [byte_setWidth_toNat]; omega)

/-! ### One byte, by table and bit by bit (R212) -/

theorem word16_eq_xor_bytes (c : Word16) : c = (crcHi c).setWidth 16 <<< 8 ^^^ (crcLo c).setWidth 16 := by
  ext i hi
  by_cases h : i < 8
  · simp [crcHi, crcLo, h, BitVec.getLsbD_eq_getElem hi]
  · have hi8 : i - 8 < 8 := by omega
    simp [crcHi, crcLo, h, hi8, Nat.add_sub_cancel' (Nat.le_of_not_lt h), BitVec.getLsbD_eq_getElem hi]

/-- The table holds the feedback of the high byte; the low byte gives none. -/
theorem crcStep_eq_crcStepBits (c : Word16) (b : Byte) : crcStep c b = crcStepBits c b := by
  have hlo : c <<< 8 = crcShift8 ((crcLo c).setWidth 16) := by
    rw [crcShift8_byte]
    ext i hi
    have hi16 : i - 8 < 16 := by omega
    simp [crcLo, show i - 8 < 8 by omega, BitVec.getLsbD_eq_getElem hi16]
  have hhi : crcTable (crcHi c ^^^ b) = crcShift8 ((crcHi c).setWidth 16 <<< 8 ^^^ b.setWidth 16 <<< 8) := by
    rw [crcTable, BitVec.setWidth_xor, BitVec.shiftLeft_xor_distrib]
  calc crcStep c b
      = c <<< 8 ^^^ crcTable (crcHi c ^^^ b) := rfl
    _ = crcShift8 ((crcLo c).setWidth 16 ^^^ ((crcHi c).setWidth 16 <<< 8 ^^^ b.setWidth 16 <<< 8)) := by
      rw [hlo, hhi, ← crcShift8_xor]
    _ = crcShift8 ((crcHi c).setWidth 16 <<< 8 ^^^ (crcLo c).setWidth 16 ^^^ b.setWidth 16 <<< 8) := by
      rw [← BitVec.xor_assoc, BitVec.xor_comm ((crcLo c).setWidth 16)]
    _ = crcStepBits c b := by rw [← word16_eq_xor_bytes, crcStepBits]

/-- Settles O34: the two forms agree byte by byte (`crcStep_eq_crcStepBits`). -/
theorem crcTableAgreesWithBits : Obligations.CrcTableAgreesWithBits := by
  intro p D
  rw [crc16, crc16Bits, funext₂ crcStep_eq_crcStepBits]

/-! ### A changed byte changes the CRC (R222) -/

theorem crcStep_left_injective (b : Byte) : Function.Injective (crcStep · b) := by
  intro c c' h
  simp only [crcStep_eq_crcStepBits] at h
  exact (BitVec.xor_left_inj _).1 (crcShift8_injective h)

theorem crcStep_right_injective (c : Word16) : Function.Injective (crcStep c) := by
  intro b b' h
  rw [crcStep_eq_crcStepBits, crcStep_eq_crcStepBits] at h
  have hshift := congrArg BitVec.toNat ((BitVec.xor_right_inj _).1 (crcShift8_injective h))
  simp only [BitVec.toNat_shiftLeft, byte_setWidth_toNat, Nat.shiftLeft_eq] at hshift
  apply BitVec.eq_of_toNat_eq
  omega

/-- Two registers that differ still differ after the same bytes. -/
theorem foldl_crcStep_injective (D : Bytes) : Function.Injective (D.foldl crcStep) := by
  induction D with
  | nil => exact Function.injective_id
  | cons b D ih => exact ih.comp (crcStep_left_injective b)

theorem drop_eq_getD_cons {X : Bytes} {i : Nat} (h : i < X.length) : X.drop i = X.getD i 0 :: X.drop (i + 1) := by
  rw [List.drop_eq_getElem_cons h, List.getD_eq_getElem _ _ h]

/-- Replacing one byte of a string by another value changes its CRC, whatever CRC_INIT and CRC_XOROUT are. -/
theorem crc16_set_ne (p : Params) {D : Bytes} {k : Nat} {b : Byte} (hk : k < D.length) (hb : b ≠ D.getD k 0) :
    crc16 p (D.set k b) ≠ crc16 p D := by
  intro heq
  have hfold := (BitVec.xor_left_inj _).1 heq
  have hD : D = D.take k ++ D.getD k 0 :: D.drop (k + 1) := by rw [← drop_eq_getD_cons hk, List.take_append_drop]
  rw [List.set_eq_take_append_cons_drop, if_pos hk] at hfold
  conv at hfold => rhs; rw [hD]
  rw [List.foldl_append, List.foldl_append] at hfold
  exact hb (crcStep_right_injective _ (foldl_crcStep_injective _ hfold))

/-! ### Frames and what unpack finds -/

/-- The two CRC bytes of a frame hold the whole CRC (R214). -/
theorem crcLo_add_crcHi (c : Word16) : (crcLo c).toNat + 256 * (crcHi c).toNat = c.toNat := by
  have hc := c.isLt
  simp only [crcLo, crcHi, BitVec.toNat_setWidth, BitVec.toNat_ushiftRight, Nat.shiftRight_eq_div_pow]
  omega

theorem eq_of_crcLo_crcHi {c c' : Word16} (hlo : crcLo c = crcLo c') (hhi : crcHi c = crcHi c') : c = c' := by
  apply BitVec.eq_of_toNat_eq
  rw [← crcLo_add_crcHi c, ← crcLo_add_crcHi c', hlo, hhi]

/-- What unpack finds is a packed frame at the start of its input, with the trailing bytes the length check asks for (R216). -/
theorem crcPack_of_crcUnpack {p : Params} {X P : Bytes} {L : Nat} {cmd : Byte} (h : crcUnpack p X = some (L, cmd, P)) :
    P.length ≤ 255 ∧ X = crcPack p cmd P ++ X.drop L ∧ p.minLen ≤ 5 + (X.drop L).length := by
  obtain ⟨hsync, rfl, rfl, hP, hle, hmin, hn, hlo, hhi⟩ := crcUnpack_some h
  have hbyte := (X.getD 2 0).isLt
  generalize hlen : (X.getD 2 0).toNat = n at *
  have hPlen : P.length = n := by rw [hP, List.length_take, List.length_drop]; omega
  have hhead : X.take (n + 3) = crcHeader p (X.getD 1 0) P := by
    have hX : X = p.sync :: X.getD 1 0 :: BitVec.ofNat 8 P.length :: X.drop 3 := by
      rw [hPlen, ← hlen, BitVec.ofNat_toNat, BitVec.setWidth_eq, ← hsync, ← drop_eq_getD_cons (by omega),
        ← drop_eq_getD_cons (by omega), ← drop_eq_getD_cons (by omega), List.drop_zero]
    conv_lhs => rw [hX]
    rw [crcHeader, hP]
    rfl
  have hPle : P.length ≤ 255 := by omega
  refine ⟨hPle, ?_, by rw [List.length_drop]; omega⟩
  rw [Nat.add_sub_cancel (n + 3) 2, hhead] at hlo
  rw [Nat.add_sub_cancel (n + 4) 1, Nat.add_sub_cancel (n + 3) 2, hhead] at hhi
  calc X = X.take (n + 3) ++ X.drop (n + 3) := (List.take_append_drop ..).symm
    _ = crcPack p (X.getD 1 0) P ++ X.drop (n + 5) := by
      rw [hhead, drop_eq_getD_cons (by omega), drop_eq_getD_cons (by omega), hlo, hhi, crcPack_eq hPle, List.append_assoc]
      rfl

/-- Settles O38: `crcUnpack_crcPack`, which the scan's proofs already use, is the round trip. -/
theorem crcRoundTrip : Obligations.CrcRoundTrip := fun _ _ _ _ => crcUnpack_crcPack

theorem crcHeader_set (p : Params) (cmd b : Byte) (P : Bytes) (k : Nat) :
    crcHeader p cmd (P.set k b) = (crcHeader p cmd P).set (3 + k) b := by
  simp [crcHeader, Nat.add_comm 3]

/-- The frame with one payload byte replaced has the header of the changed payload and the CRC of the old one (R213). -/
theorem crcPack_set {p : Params} {cmd b : Byte} {P : Bytes} {k : Nat} (hP : P.length ≤ 255) (hk : k < P.length) :
    (crcPack p cmd P).set (3 + k) b = crcHeader p cmd (P.set k b) ++
      [crcLo (crc16 p (crcHeader p cmd P)), crcHi (crc16 p (crcHeader p cmd P))] := by
  rw [crcPack_eq hP, List.set_append_left _ _ (by rw [crcHeader_length]; omega), crcHeader_set]

/-- The length byte says where the payload ends, so what begins with a header and payload begins with no other. -/
theorem crcHeader_append_inj {p : Params} {cmd cmd' : Byte} {P P' A B : Bytes} (hP : P.length ≤ 255) (hP' : P'.length ≤ 255)
    (h : crcHeader p cmd P ++ A = crcHeader p cmd' P' ++ B) : crcHeader p cmd P = crcHeader p cmd' P' ∧ A = B := by
  have hbyte : BitVec.ofNat 8 P.length = BitVec.ofNat 8 P'.length := congrArg (List.getD · 2 0) h
  have hlen : P.length = P'.length := by rw [← crcLength_toNat hP, hbyte, crcLength_toNat hP']
  exact List.append_inj h (by rw [crcHeader_length, crcHeader_length, hlen])

/-- Settles O39: unpack would find the header of the changed payload with its own CRC behind it, which is not the old one. -/
theorem crcDetectsPayloadByteChange : Obligations.CrcDetectsPayloadByteChange := by
  intro p cmd b P Y k hP hk hb
  refine Option.eq_none_iff_forall_ne_some.2 fun ⟨L, cmd', P'⟩ hfound => ?_
  obtain ⟨hP', hX, -⟩ := crcPack_of_crcUnpack hfound
  rw [crcPack_set hP hk, crcPack_eq hP', List.append_assoc, List.append_assoc] at hX
  obtain ⟨hhead, htail⟩ := crcHeader_append_inj (by rwa [List.length_set]) hP' hX
  rw [← hhead] at htail
  injection htail with hlo htail
  injection htail with hhi _
  have hcrc := eq_of_crcLo_crcHi hlo hhi
  rw [crcHeader_set] at hcrc
  refine crc16_set_ne p ?_ ?_ hcrc.symm
  · rw [crcHeader_length]; omega
  · simpa [crcHeader, Nat.add_comm 3] using hb

/-! ### The commands -/

theorem exec_crcUnpack_none {s : State} {X : Bytes} (h : crcUnpack s.cfg X = none) :
    exec (.crcUnpack X) s = .next (answered .ok 0 [] s) := by
  simp only [exec, execCrcUnpack, h, respond_eq_answered]

theorem exec_crcUnpack_some {s : State} {X P : Bytes} {L : Nat} {cmd : Byte} (h : crcUnpack s.cfg X = some (L, cmd, P)) :
    exec (.crcUnpack X) s = .next (answered .ok (word16 L) ([cmd, BitVec.ofNat 8 P.length] ++ P) s) := by
  simp only [exec, execCrcUnpack, h, respond_eq_answered]

/-- Settles O37: unpack finds each packed frame (`crcUnpack_crcPack`) and nothing else (`crcPack_of_crcUnpack`). -/
theorem crcUnpackFindsExactlyFrames : Obligations.CrcUnpackFindsExactlyFrames := by
  refine fun s X => ⟨fun cmd P Y hP hX hY => exec_crcUnpack_some (hX ▸ crcUnpack_crcPack hP hY), fun hno => ?_⟩
  refine exec_crcUnpack_none (Option.eq_none_iff_forall_ne_some.2 fun ⟨L, cmd, P⟩ hfound => ?_)
  obtain ⟨hP, hX, hmin⟩ := crcPack_of_crcUnpack hfound
  exact hno cmd P _ hP hX hmin

/-- Settles O36: the frame is `crcPack`'s (`crcPack_eq`), its last two bytes the whole CRC (`crcLo_add_crcHi`). -/
theorem crcPackBuildsFrame : Obligations.CrcPackBuildsFrame := by
  refine fun s cmd P => ⟨fun hP => ?_, fun hP => ?_⟩
  · refine ⟨BitVec.ofNat 8 P.length, _, _, crcLength_toNat hP, crcLo_add_crcHi _, ?_⟩
    simp only [exec, execCrcPack, if_neg (Nat.not_lt.2 hP), respond_eq_answered, crcPack_length hP]
    rw [crcPack_eq hP]
    rfl
  · simp only [exec, execCrcPack, if_pos hP, reject_eq_answered]

/-- Settles O35: the command answers `crc16`, which leaves CRC_INIT as it is when there is no byte. -/
theorem crc16ComputeResponds : Obligations.Crc16ComputeResponds := by
  intro s D
  have hresponds (D : Bytes) : exec (.crc16Compute D) s = .next (answered .ok (crc16 s.cfg D) [] s) := by
    simp only [exec, execCrc16Compute, respond_eq_answered]
  have hempty : crc16 s.cfg [] = s.cfg.crcInit ^^^ s.cfg.crcXorout := by simp only [crc16, List.foldl_nil]
  exact ⟨hresponds D, hempty ▸ hresponds []⟩

end Sys2Proof.Machine

/-! PROOF. The SLIP codec and its checksum (43_slip.md): unstuffing the content of a frame loses nothing, so slip_unpack finds a frame
exactly where slip_pack's bytes begin its input. -/

namespace Sys2Proof.Machine

/-! ### The checksum (R242) -/

theorem foldl_add_toNat (D : Bytes) (a : Byte) :
    (D.foldl (· + ·) a).toNat = (a.toNat + (D.map BitVec.toNat).sum) % 256 := by
  induction D generalizing a with
  | nil => exact (Nat.mod_eq_of_lt a.isLt).symm
  | cons b D ih => rw [List.foldl_cons, ih, BitVec.toNat_add, Nat.mod_add_mod, List.map_cons, List.sum_cons, Nat.add_assoc]

theorem slipChecksum_toNat (D : Bytes) : (slipChecksum D).toNat = 255 - (D.map BitVec.toNat).sum % 256 := by
  have hnot : slipChecksum D = ~~~ byteSum D := BitVec.allOnes_xor
  rw [hnot, BitVec.toNat_not, byteSum, foldl_add_toNat]
  simp

/-- Settles O40: the answer is the checksum byte (`slipChecksum_toNat`), which 16 bits hold. -/
theorem slipChecksumIsComplementOfSum : Obligations.SlipChecksumIsComplementOfSum := by
  refine fun s D => ⟨(slipChecksum D).setWidth 16, ?_, ?_⟩
  · rw [byte_setWidth_toNat, slipChecksum_toNat]
  · simp only [exec, execSlipChecksum, respond_eq_answered]

/-! ### The length of a frame (R243) -/

theorem slipStuff_cons (p : Params) (b : Byte) (S : Bytes) : slipStuff p (b :: S) = slipEscape p b ++ slipStuff p S := rfl

theorem slipEscape_length_le (p : Params) (b : Byte) : (slipEscape p b).length ≤ 2 := by
  unfold slipEscape
  split_ifs <;> simp

theorem slipStuff_length_le (p : Params) (S : Bytes) : (slipStuff p S).length ≤ 2 * S.length := by
  induction S with
  | nil => exact Nat.le_refl 0
  | cons b S ih =>
    have hb := slipEscape_length_le p b
    rw [slipStuff_cons, List.length_append, List.length_cons]
    omega

theorem slipPack_length_le (p : Params) (D : Bytes) : (slipPack p D).length ≤ 2 * D.length + 4 := by
  unfold slipPack
  split
  · exact Nat.zero_le _
  · have hstuff := slipStuff_length_le p (D ++ [slipChecksum D])
    simp only [List.length_append, List.length_singleton] at hstuff ⊢
    omega

/-- Settles O41: `slipPack` is R245's layout, and its length the RESULT where 16 bits hold it. -/
theorem slipPackBuildsFrame : Obligations.SlipPackBuildsFrame := by
  refine fun s D => ⟨fun hD => ?_, fun hD => ?_⟩
  · have hlen : ¬ D.length = 0 := fun h => hD (List.eq_nil_of_length_eq_zero h)
    refine ⟨packedLength D (slipPack s.cfg D), slipPack s.cfg D, ?_, fun hfits => ?_, slipPack_length_le .., ?_⟩
    · rw [slipPack, if_neg hlen]
      rfl
    · rw [packedLength, if_pos hfits, word16_toNat hfits]
    · simp only [exec, execSlipPack, if_neg hlen, respond_eq_answered]
  · simp only [exec, execSlipPack, hD, List.length_nil, if_pos, reject_eq_answered]

/-! ### What unpack finds (R246) -/

/-- An escape sequence that unstuffs is the one R244 gives for the byte it stands for. -/
theorem slipUnstuff_esc {p : Params} {e : Byte} {rest U : Bytes} (h : slipUnstuff p (slipEsc :: e :: rest) = some U) :
    ∃ b V, U = b :: V ∧ slipUnstuff p rest = some V ∧ slipEscape p b = [slipEsc, e] := by
  rw [slipUnstuff, if_pos rfl] at h
  split_ifs at h with hEnd hEsc
  · obtain ⟨V, hV, rfl⟩ := Option.map_eq_some_iff.1 h
    exact ⟨slipEnd, V, rfl, hV, by rw [slipEscape, if_pos rfl, hEnd]⟩
  · obtain ⟨V, hV, rfl⟩ := Option.map_eq_some_iff.1 h
    exact ⟨slipEsc, V, rfl, hV, by rw [slipEscape, if_neg (by decide), if_pos rfl, hEsc]⟩

/-- The ESC that stands before the rest of the input when the scan for the closing delimiter is in an escape sequence. -/
def pendingEsc (escaped : Bool) : Bytes := if escaped then [slipEsc] else []

/-- The content ends at the first unescaped END, so it holds none; where it unstuffs, it is the stuffing of what it
unstuffs to. -/
theorem slipStuff_of_slipClose {p : Params} {X : Bytes} {k close : Nat} {escaped : Bool}
    (h : slipClose k escaped X = some close) :
    ∃ T Y, X = T ++ slipEnd :: Y ∧ close = k + T.length ∧
      ∀ U, slipUnstuff p (pendingEsc escaped ++ T) = some U →
        slipStuff p U = pendingEsc escaped ++ T := by
  induction X generalizing k escaped with
  | nil => cases h
  | cons b X ih =>
    cases escaped with
    | true =>
      obtain ⟨T, Y, rfl, rfl, hT⟩ := ih h
      refine ⟨b :: T, Y, rfl, by rw [List.length_cons]; omega, fun U hU => ?_⟩
      obtain ⟨c, V, rfl, hV, hc⟩ := slipUnstuff_esc hU
      rw [slipStuff_cons, hc, hT V hV]
      rfl
    | false =>
      rw [slipClose, if_neg (by decide)] at h
      split_ifs at h with hEsc hEnd
      · obtain ⟨T, Y, rfl, rfl, hT⟩ := ih h
        exact ⟨b :: T, Y, rfl, by rw [List.length_cons]; omega, hEsc ▸ hT⟩
      · cases h
        exact ⟨[], X, by rw [hEnd]; rfl, rfl, fun U hU => by cases hU; rfl⟩
      · obtain ⟨T, Y, rfl, rfl, hT⟩ := ih h
        refine ⟨b :: T, Y, rfl, by rw [List.length_cons]; omega, fun U hU => ?_⟩
        obtain ⟨V, hV, rfl⟩ := Option.map_eq_some_iff.1 ((slipUnstuff_of_ne hEsc T).symm.trans hU)
        rw [slipStuff_cons, slipEscape, if_neg hEnd, if_neg hEsc, hT V hV]
        rfl

/-- What unpack finds passed R246's two parts and its checksum. -/
theorem slipUnpack_found {p : Params} {X D : Bytes} {L : Nat} (h : slipUnpack p X = some (L, D)) :
    ∃ close, slipClose 1 false (X.drop 1) = some close ∧
      slipUnstuff p ((X.take close).drop 1) = some (D ++ [slipChecksum D]) := by
  rw [slipUnpack] at h
  split at h
  · cases h
  · cases hclose : slipClose 1 false (X.drop 1) with
    | none => simp only [hclose, reduceCtorEq] at h
    | some close =>
      cases hU : slipUnstuff p ((X.take close).drop 1) with
      | none => simp only [hclose, hU, reduceCtorEq] at h
      | some U =>
        simp only [hclose, hU] at h
        split_ifs at h with hlen hsum
        cases h
        have hne : U ≠ [] := fun hnil => hlen (by simp [hnil])
        rw [List.getLastD_eq_getLast?, List.getLast?_eq_some_getLast hne] at hsum
        refine ⟨close, rfl, ?_⟩
        rw [hU, ← not_not.1 hsum, Option.getD_some, List.dropLast_append_getLast hne]

/-- What unpack finds is a packed frame at the start of its input. -/
theorem slipPack_of_slipUnpack {p : Params} {X D : Bytes} {L : Nat} (h : slipUnpack p X = some (L, D)) :
    D ≠ [] ∧ ∃ Y, X = slipPack p D ++ Y := by
  obtain ⟨hD, -, hfirst⟩ := slipUnpack_some h
  obtain ⟨close, hclose, hunstuff⟩ := slipUnpack_found h
  obtain ⟨T, Y, hX, rfl, hT⟩ := slipStuff_of_slipClose (p := p) hclose
  cases X with
  | nil => cases hclose
  | cons b X =>
    obtain rfl : b = slipEnd := hfirst
    obtain rfl : X = T ++ slipEnd :: Y := hX
    have hcontent : ((slipEnd :: (T ++ slipEnd :: Y)).take (1 + T.length)).drop 1 = T := by simp [Nat.add_comm 1]
    have hstuff : slipStuff p (D ++ [slipChecksum D]) = T := hT _ (hcontent ▸ hunstuff)
    refine ⟨List.ne_nil_of_length_pos hD, Y, ?_⟩
    rw [slipPack_eq hD, hstuff, List.cons_append, List.append_assoc, List.singleton_append]

/-! ### The round trip and SLIP_UNPACK (R249, R250) -/

/-- Settles O43: `slipUnpack_slipPack`, for the escape codes of a legal configuration. -/
theorem slipRoundTrip : Obligations.SlipRoundTrip := by
  intro p D Y hl hD
  obtain ⟨-, -, -, -, hcodes⟩ := legal_codes hl
  exact slipUnpack_slipPack hcodes.symm hD

theorem exec_slipUnpack_none {s : State} {X : Bytes} (h : slipUnpack s.cfg X = none) :
    exec (.slipUnpack X) s = .next (answered .ok 0 [] s) := by
  simp only [exec, execSlipUnpack, h, respond_eq_answered]

theorem exec_slipUnpack_some {s : State} {X D : Bytes} {L : Nat} (h : slipUnpack s.cfg X = some (L, D)) :
    exec (.slipUnpack X) s = .next (answered .ok (word16 L) D s) := by
  simp only [exec, execSlipUnpack, h, respond_eq_answered]

/-- Settles O42: unpack finds each packed frame (`slipRoundTrip`) and nothing else (`slipPack_of_slipUnpack`). -/
theorem slipUnpackFindsExactlyFrames : Obligations.SlipUnpackFindsExactlyFrames := by
  refine fun s X hl => ⟨fun D Y hD hX => ?_, fun hno => ?_⟩
  · exact exec_slipUnpack_some (hX ▸ slipRoundTrip s.cfg D Y hl (List.length_pos_iff.2 hD))
  · refine exec_slipUnpack_none (Option.eq_none_iff_forall_ne_some.2 fun ⟨L, D⟩ hfound => ?_)
    obtain ⟨hD, Y, hX⟩ := slipPack_of_slipUnpack hfound
    exact hno D Y hD hX

end Sys2Proof.Machine

/-! PROOF. The exceptions (60_exceptions.md): no command is refused, a POLL that fails its lock, RAISE_DERR and the idle block. -/

namespace Sys2Proof.Machine

/-! ### Every step answers (R270, R286) -/

/-- No word of a block means the other codec's SEND (30_encoding.md R96, R98). -/
theorem codecOk_of_decode {codec : Codec} {w : Word32} {din : Bytes} {i : Instr} (h : decode codec w din = .ok i) :
    i.codecOk codec = true := by
  obtain ⟨op, -, -, hc⟩ := decode_ok_iff.mp h
  exact codecOk_of_commandOf hc

theorem takeCommand_run {w : Word32} {din : Bytes} {s t : State} {i : Instr} (h : takeCommand w din s = .run i t) :
    t = s ∧ decode s.cfg.codec w din = .ok i := by
  unfold takeCommand at h
  split at h
  case h_1 j hd =>
    cases h
    exact ⟨rfl, hd⟩
  case h_2 => cases h

/-- A fetch that asks for a command took it from the schedule, and the command is one the block has. -/
theorem fetch_run_codecOk {s t : State} {i : Instr} (h : fetch s = .run i t) : i.codecOk t.cfg.codec = true := by
  unfold fetch at h
  split at h
  · cases h
  · split at h
    · cases h
    · cases h
    · cases h
    · split at h
      · cases h
      · obtain ⟨rfl, hd⟩ := takeCommand_run h
        exact codecOk_of_decode hd

/-- A command the block has answers a next state. -/
theorem exec_next_of_codecOk {i : Instr} {s : State} (h : i.codecOk s.cfg.codec = true) : ∃ t, exec i s = .next t := by
  obtain hnext | ⟨hother, -⟩ := exec_next_or_otherCodec i s
  · exact hnext
  · exact absurd h (by simp [hother])

/-- Settles O11: a legal configuration is not refused at the fetch, and what it fetches is a command of the block. -/
theorem stepAlwaysAnswers : Obligations.StepAlwaysAnswers := by
  intro s hl
  cases hf : fetch s with
  | run i t => simpa only [step, hf] using exec_next_of_codecOk (fetch_run_codecOk hf)
  | done t => exact ⟨t, by simp only [step, hf]⟩
  | stop r => exact absurd hf (fetch_ne_stop hl r)

/-! ### A POLL that fails its lock (R271, R272) -/

/-- Settles O54: at each waiting point the turn is `pollEnd` with the frames decoded, once the draw is taken (`pollTurn_busy`). -/
theorem pollLockFailureEndsIt : Obligations.PollLockFailureEndsIt := by
  intro s sc hs hscan hf
  rw [pollTurn_busy hs hscan hf, drawn_any (lockFails_any hf)]
  rfl

/-! ### RAISE_DERR (R275) -/

theorem step_of_inputs_raiseDerr {s : State} {code : Byte} {rest : List Input} (hl : legal s.cfg = true)
    (hi : s.inputs = .raiseDerr code :: rest) : step s = .next (raiseDerr code { s with inputs := rest }) := by
  simp [step, fetch, hl, hi]

/-- Settles O7: while an error is pending neither of its two fields changes, else both are set. -/
theorem raiseDerrRecordsFirst : Obligations.RaiseDerrRecordsFirst := by
  intro s code rest hl hi
  rw [step_of_inputs_raiseDerr hl hi]
  cases s.derrPending
  · simp [raiseDerr]
  · simp [raiseDerr]

/-! ### The idle block (R284) -/

theorem pollTurn_of_scan_none {s : State} (h : s.scan = none) : pollTurn s = s := by
  simp only [pollTurn, h]

/-- Settles O8: with nothing scheduled the step is the POLL's turn, and no POLL is active. -/
theorem idleKeepsState : Obligations.IdleKeepsState := by
  intro s hl hi hp
  have hscan : s.scan = none := Option.not_isSome_iff_eq_none.mp (ne_true_of_eq_false hp)
  rw [step_of_inputs_nil hl hi, pollTurn_of_scan_none hscan]

end Sys2Proof.Machine

/-! PROOF. Reset and hazards (70_reset_and_hazards.md): what only a reset undoes, and the window stall. -/

namespace Sys2Proof.Machine

/-! ### The flags that only a reset clears (R301) -/

/-- From s to t neither `initialized` nor `running` has been cleared, and the configuration is the same. -/
structure Latched (s t : State) : Prop where
  initialized : s.initialized = true → t.initialized = true
  running : s.running = true → t.running = true
  cfg : t.cfg = s.cfg

theorem Latched.of_eq {s t : State} (hi : t.initialized = s.initialized) (hr : t.running = s.running) (hc : t.cfg = s.cfg) :
    Latched s t :=
  ⟨hi.trans, hr.trans, hc⟩

theorem Kept.latched {s t u : State} (h : Kept u t) (hu : Latched s u) : Latched s t :=
  ⟨fun hi => h.initialized.trans (hu.initialized hi), fun hr => h.running.trans (hu.running hr), h.cfg.trans hu.cfg⟩

/-- INIT clears `running` only where `initialized` is not set, and there `running` is not set either. -/
theorem Latched.setInitialized {s : State} (hs : s.Inv) (hinit : s.initialized = false) :
    Latched s (Machine.setInitialized s) where
  initialized _ := rfl
  running hrun := absurd (hs.running_initialized hrun) (by simp [hinit])
  cfg := rfl

theorem PollEffect.latched {s t : State} (h : PollEffect s t) : Latched s t := by
  cases h with
  | kept hk => exact hk.latched (.of_eq rfl rfl rfl)
  | discard _ hk => exact hk.latched (.of_eq rfl rfl rfl)
  | clear _ _ _ hk => exact hk.latched ⟨id, fun _ => rfl, rfl⟩

theorem CommandEffect.latched {s t : State} {i : Instr} (h : CommandEffect s t i) (hs : s.Inv) : Latched s t := by
  cases h with
  | quiet _ hq => exact hq.latched (.of_eq rfl rfl rfl)
  | init hinit hq => exact hq.latched (.setInitialized hs hinit)
  | report hq => exact hq.latched (.of_eq rfl rfl rfl)
  | start _ hq => exact hq.latched (.of_eq rfl rfl rfl)
  | send _ _ _ _ hq => exact hq.latched (.of_eq rfl rfl rfl)
  | enqueue _ D hq => exact hq.latched (.of_eq (by simp) (by simp) (by simp))
  | discard _ _ hq => exact hq.latched (.of_eq rfl rfl rfl)

/-- Settles O18: of all a step can do only INIT clears a flag, and `Latched.setInitialized` says why it loses nothing. -/
theorem onlyResetClearsFlags : Obligations.OnlyResetClearsFlags := by
  intro s t hs h
  suffices hl : Latched s t from ⟨hl.initialized, hl.running, hl.cfg⟩
  cases step_effect h with
  | poll rest ht =>
    obtain ⟨hi, hr, hc⟩ := ht ▸ (pollTurn_effect { s with inputs := rest }).latched
    exact ⟨hi, hr, hc⟩
  | raise code rest _ ht => constructor <;> simp [ht]
  | illegal hq => exact hq.latched (.of_eq rfl rfl rfl)
  | command issuer _ _ rest _ _ _ he =>
    obtain ⟨hi, hr, hc⟩ := he.latched (hs.taking rest issuer)
    exact ⟨hi, hr, hc⟩

/-! ### The window stall (R310) -/

/-- A window that begins with SYNC has nothing to discard before its first SYNC (R177). -/
theorem resyncCount_eq_zero {p : Params} {W : Bytes} (h : W.getD 0 0 = p.sync) : resyncCount p W = 0 := by
  by_contra hk
  exact getD_ne_of_lt_resyncCount (Nat.pos_of_ne_zero hk) h

/-- A scan that finds no further match ends the POLL with (OK, count); but for `rxFrame` it changes nothing else (R182, R183). -/
theorem pollScan_eq_of_none {sc : Scan} {s : State} (h : nextMatch s.cfg sc.pos (sc.window.drop sc.pos) = none) :
    pollScan sc s = { pollEnd sc .ok sc.count s with
      rxFrame := (pollScan sc s).rxFrame
      freeCount := (pollScan sc s).freeCount } := by
  obtain ⟨hscan, hresp⟩ := pollScan_of_none h
  rw [pollScan_frame, hscan, hresp]
  rfl

/-- P2 at a window that begins with SYNC: it is published and scanned from its start (R175, R176, R178). -/
theorem pollTurn_peek_sync {s : State} {sc : Scan} (hscan : s.scan = some sc) (hr : ringReady s) (hphase : sc.phase = .start)
    (hrun : s.running = true) {W : Bytes} (hW : (stored s).take s.cfg.maxLen = W) (hne : W.length ≠ 0)
    (hsync : W.getD 0 0 = s.cfg.sync) :
    pollTurn s = pollScan { sc with window := W, pos := 0, base := 0, count := 0 } (emit (.rawRx W) (drawn s)) := by
  rw [pollTurn_peek hscan hr hphase hrun hW, if_neg hne, if_neg (by simp [resyncCount_eq_zero hsync])]

/-- Settles O57: the scan of the published window finds nothing (`nextMatch_none`), and a scan leaves the ring alone. -/
theorem windowStall : Obligations.WindowStall := by
  intro s sc hs hscan hphase hrun hr W hfull hsync hno
  obtain ⟨-, -, hmin, hmax, -⟩ := legal_bounds hs.legal
  have hturn := pollTurn_peek_sync hscan hr hphase hrun (W := W) rfl (by omega) hsync
  dsimp only
  refine ⟨?_, ?_⟩
  · have hend := pollScan_eq_of_none (sc := { sc with window := W, pos := 0, base := 0, count := 0 })
      (s := emit (.rawRx W) (drawn s)) (by simpa using nextMatch_none hno)
    rw [← hturn] at hend
    refine hend.trans ?_
    apply State.ext <;> simp [word16]
  · rw [pollTurn_cfg, hturn, stored_pollScan, stored_emit, stored_drawn]

end Sys2Proof.Machine
